-- ==== Sys2Proof/Word.lean ====
section
/-! DEFINITION. The plain data the Mirhal 2080 is built from: bytes, 32-bit numbers, 32-byte lines and the
number ranges of regions, tags and notice sources. -/

namespace Sys2Proof

/-- One byte of a management link frame. -/
abbrev Byte := BitVec 8

/-- A 32-bit number of the part: a record sequence, a generation, a transaction number, an anchor sequence, a data
word. -/
abbrev Word32 := BitVec 32

/-- The contents of one line or log block, 32 bytes (00_scope.md, Terms; R161): byte `k` of the block is bits `8k` to
`8k + 7`, and word `i` bits `32i` to `32i + 31`. -/
abbrev Line := BitVec 256

/-- A region number, 0 to 7 (R1). -/
abbrev RegionId := Fin 8

/-- A host request tag of the upstream port, 0 to 15 (R148). -/
abbrev HostTag := Fin 16

/-- A downstream request tag, 0 to 31 (R161). -/
abbrev DownTag := Fin 32

/-- A notice source number, 1 to 27; the number 0 names no source (R174). -/
abbrev Source := Fin 28

/-- The eight region numbers in ascending order. -/
def allRegions : List RegionId := [0, 1, 2, 3, 4, 5, 6, 7]

/-- The thirty-two downstream tags in ascending order. -/
def allTags : List DownTag := List.finRange 32

/-- The twenty-seven notice sources in ascending order (R174). -/
def allSources : List Source := (List.finRange 28).tail

end Sys2Proof
end

