-- ==== Sys2Proof/Config.lean ====
section
/-! DEFINITION. What is fixed for the part: the sizes the manual states, and the one free value of the model. -/

namespace Sys2Proof.Config

/-- Entries of the Request Table (R152). -/
def tableSize : Nat := 16

/-- Entries of the Line Directory (R60). -/
def directorySize : Nat := 256

/-- Entries of the Fault Queue (R113). -/
def faultQueueSize : Nat := 4

/-- The most lines one UNDO record holds (R33). -/
def groupSize : Nat := 8

/-- The share count at which a waiting host entry is issued first (R164, R165). -/
def hostShare : Nat := 4

/-- The highest age count (R27). -/
def ageTop : Nat := 65535

/-- CLK periods counted to one microsecond (R196). -/
def clocksPerMicrosecond : Nat := 50

/-- The anchor marker constant (R51). -/
def anchorMarker : Nat := 0x524A4131

/-- The device code IDENT returns (R188). -/
def deviceCode : Nat := 0x2080

/-- The revision code IDENT returns (R188). -/
def revisionCode : Nat := 0x01

/-- FREE VALUE (DESIGN CHOICE, notes/assumptions/5.md). Whether, on the expiry that brings the quarantine to 32 tags, the
stall begins before the timed-out owner acts. R114 lets pushes of different blocks on events that come together be
entered in either order, so nothing is assumed of this value. -/
opaque stallPushedFirst : Nat → Bool

end Sys2Proof.Config
end

