-- ==== Sys2Proof/Syntax.lean ====
section
/-! DEFINITION. The commands of the block: one constructor for each row of spec/opcode_table.json. Management link
commands carry the operand bytes their frame shifts in (Table 11-4), ports carry what their channel transfers. -/

namespace Sys2Proof

/-- The operation of a memory request (R148, R161). -/
inductive Op where
  | read
  | write
deriving DecidableEq, Repr

/-- A request as the host presents it on the upstream request channel (R148). `data` holds the data words from the
request's address on and `strobes` four byte strobes for each word; both matter for a WRITE only. -/
structure HostRequest where
  tag : HostTag
  op : Op
  addr : BitVec 24
  count : Nat
  data : Line
  strobes : Word32
deriving DecidableEq, Repr

/-- The commands and events of the part. -/
inductive Instr where
  -- management link: reads
  | ident
  | readStatus
  | readLog
  | readRegion (region : Byte)
  | readParam (param : Byte)
  | readPending
  | readFault
  | claim
  -- management link: regions and transactions
  | stage (region field : Byte) (value : Word32)
  | applyNow (region : Byte)
  | applyAtClose (region : Byte)
  | applyAtBegin (region : Byte)
  | applyCancel (region : Byte)
  | beginTxn (region : Byte)
  | commit (region : Byte)
  | abort (region : Byte)
  | retry (region : Byte)
  -- management link: the part as a whole
  | format (base : BitVec 24) (units : BitVec 16)
  | setParam (param : Byte) (value : BitVec 16)
  | setPriority (source priority : Byte)
  | setThreshold (threshold : Byte)
  | popFault
  | dportClear
  | unknownCommand (code : Byte) (operands : List Byte)
  | frameDiscard (received : List Byte)
  -- signals
  | resetAssert
  | resetRelease (msize : Fin 4) (selected : Bool)
  | firstIssueDelayExpiry
  | powerFailWarning
  -- the two memory ports
  | upstreamRequest (request : HostRequest)
  | entryStart (tag : HostTag)
  | downstreamIssue
  | downstreamResponse (tag : DownTag) (ok : Bool) (data : Line)
  | responseTimeout (tag : DownTag)
  -- time
  | tick
  | ageExpiry (region : RegionId)
  -- steps the part's blocks take by themselves
  | chooseNextWork
  | commitDrainComplete (region : RegionId)
  | walkStart
  | walkDrainComplete
  | formatAnchorWrites
  | recoveryEnd
  | settlingEnd
  -- management link: the end of a frame
  | frameEnd
deriving DecidableEq, Repr

end Sys2Proof
end

