-- ==== Sys2Proof/WellFormed.lean ====
section
/-! DEFINITION. Which command terms spell an event the part can meet. A link command's operand bytes are unrestricted
(the command's own checks answer for them), so the checks here are those of the two rows that carry raw frame bytes. -/

namespace Sys2Proof

/-- The number of operand bytes `m` of a command code, where Table 11-4 lists the code (R182, R193). -/
def operandBytes (code : Nat) : Option Nat :=
  match code with
  | 0x01 | 0x02 | 0x03 | 0x06 | 0x07 | 0x08 | 0x48 | 0x49 => some 0
  | 0x04 | 0x05 | 0x20 | 0x21 | 0x22 | 0x23 | 0x42 => some 1
  | 0x11 | 0x41 => some 2
  | 0x40 => some 3
  | 0x30 => some 5
  | 0x10 => some 6
  | _ => none

/-- Bytes that leave a frame without a taken command: none at all, or a listed code with fewer operand bytes than
the command has (R183). An unlisted code is taken on its command byte (R185), so it is not among them. -/
def incompleteFrame (received : List Byte) : Bool :=
  match received with
  | [] => true
  | code :: operands =>
    match operandBytes code.toNat with
    | some m => decide (operands.length < m)
    | none => false

/-- The APPLY frame's code (Table 11-4). -/
def applyCode : Nat := 0x11

/-- A frame of APPLY whose point code is none of NOW, AT_CLOSE, AT_BEGIN and CANCEL (R10). -/
def unknownPoint (code : Byte) (operands : List Byte) : Bool :=
  match operands with
  | [_, point] => decide (code.toNat = applyCode) && decide (3 < point.toNat)
  | _ => false

/-- A code Table 11-4 does not list, taken with no operands (R185). -/
def unknownCode (code : Byte) (operands : List Byte) : Bool :=
  (operandBytes code.toNat).isNone && operands.isEmpty

/-- Whether a command term spells an event of its row. -/
def Instr.wf : Instr → Bool
  | .unknownCommand code operands => unknownCode code operands || unknownPoint code operands
  | .frameDiscard received => incompleteFrame received
  | _ => true

end Sys2Proof
end

