-- ==== Sys2Proof/Decode.lean ====
section
/-! DEFINITION. The words of a command. The opcode table gives no row any bits, so `decodeTableWord` answers none for
every word. The management link does give its commands bytes (Table 11-4): `frameBytes` lists the bytes a link command
shifts in and `decodeFrame` reads a command from them. -/

namespace Sys2Proof

/-- No row of spec/opcode_table.json gives bits (its "fields" are empty and no row has "fixed"), so no word spells a
command. -/
def decodeTableWord (_nbits _w : Nat) : Option Instr := none

/-- The `len` bytes of a number, most significant byte first, as the link sends every field (R193). -/
def beBytes : Nat → Nat → List Byte
  | 0, _ => []
  | len + 1, v => BitVec.ofNat 8 (v / 2 ^ (8 * len)) :: beBytes len v

/-- The number a list of bytes spells, most significant byte first (R193). -/
def beNumber (bytes : List Byte) : Nat :=
  bytes.foldl (fun v b => v * 256 + b.toNat) 0

/-- The bytes shifted in on SDI for a link command, command byte first (Table 11-4), and no bytes for an event that
is no link command. -/
def frameBytes : Instr → List Byte
  | .ident => [0x01]
  | .readStatus => [0x02]
  | .readLog => [0x03]
  | .readRegion r => [0x04, r]
  | .readParam p => [0x05, p]
  | .readPending => [0x06]
  | .readFault => [0x07]
  | .claim => [0x08]
  | .stage r f v => [0x10, r, f] ++ beBytes 4 v.toNat
  | .applyNow r => [0x11, r, 0]
  | .applyAtClose r => [0x11, r, 1]
  | .applyAtBegin r => [0x11, r, 2]
  | .applyCancel r => [0x11, r, 3]
  | .beginTxn r => [0x20, r]
  | .commit r => [0x21, r]
  | .abort r => [0x22, r]
  | .retry r => [0x23, r]
  | .format base units => [0x30] ++ beBytes 3 base.toNat ++ beBytes 2 units.toNat
  | .setParam p v => [0x40, p] ++ beBytes 2 v.toNat
  | .setPriority s p => [0x41, s, p]
  | .setThreshold t => [0x42, t]
  | .popFault => [0x48]
  | .dportClear => [0x49]
  | .unknownCommand code operands => code :: operands
  | .frameDiscard _ | .resetAssert | .resetRelease _ _ | .firstIssueDelayExpiry | .powerFailWarning
  | .upstreamRequest _ | .entryStart _ | .downstreamIssue | .downstreamResponse _ _ _ | .responseTimeout _
  | .tick | .ageExpiry _ | .chooseNextWork | .commitDrainComplete _ | .walkStart | .walkDrainComplete
  | .formatAnchorWrites | .recoveryEnd | .settlingEnd | .frameEnd => []

/-- The command of an APPLY frame, by its point code (R10). -/
def decodeApply (r point : Byte) : Instr :=
  match point.toNat with
  | 0 => .applyNow r
  | 1 => .applyAtClose r
  | 2 => .applyAtBegin r
  | 3 => .applyCancel r
  | _ => .unknownCommand 0x11 [r, point]

/-- The link command a frame's command byte and operand bytes spell (Table 11-4, R185), and none while operand bytes
are missing or for bytes beyond the command's last operand. -/
def decodeFrame (bytes : List Byte) : Option Instr :=
  match bytes with
  | [] => none
  | code :: ops =>
    match code.toNat, ops with
    | 0x01, [] => some .ident
    | 0x02, [] => some .readStatus
    | 0x03, [] => some .readLog
    | 0x04, [r] => some (.readRegion r)
    | 0x05, [p] => some (.readParam p)
    | 0x06, [] => some .readPending
    | 0x07, [] => some .readFault
    | 0x08, [] => some .claim
    | 0x10, [r, f, a, b, c, d] => some (.stage r f (BitVec.ofNat 32 (beNumber [a, b, c, d])))
    | 0x11, [r, p] => some (decodeApply r p)
    | 0x20, [r] => some (.beginTxn r)
    | 0x21, [r] => some (.commit r)
    | 0x22, [r] => some (.abort r)
    | 0x23, [r] => some (.retry r)
    | 0x30, [a, b, c, d, e] =>
      some (.format (BitVec.ofNat 24 (beNumber [a, b, c])) (BitVec.ofNat 16 (beNumber [d, e])))
    | 0x40, [p, a, b] => some (.setParam p (BitVec.ofNat 16 (beNumber [a, b])))
    | 0x41, [s, p] => some (.setPriority s p)
    | 0x42, [t] => some (.setThreshold t)
    | 0x48, [] => some .popFault
    | 0x49, [] => some .dportClear
    | n, [] => if (operandBytes n).isNone then some (.unknownCommand code []) else none
    | _, _ => none

end Sys2Proof
end

