-- ==== Sys2Proof/Machine/State.lean ====
section
/-! DEFINITION. The state of the Mirhal 2080 as plain data: one structure per block, each item named after the table
of the manual that lists it, and `State.reset`, the part right after a reset. -/

namespace Sys2Proof.Machine

/-! ## The device and the power-fail controller -/

/-- The device-state variable (00_scope.md; Table 11-9). -/
inductive DeviceState where
  | start
  | scanning
  | restoring
  | run
  | nolog
  | formatting
  | logFault
  | quiescing
  | halted
deriving DecidableEq, Repr

/-- The Power-Fail Controller's phase (Table 7-1). -/
inductive Phase where
  | none
  | settling
  | anchoring
  | halted
deriving DecidableEq, Repr

/-- The Power-Fail Controller's state (Table 7-1). -/
structure PowerFail where
  phase : Phase
  entry : Option DeviceState
  stalled : Bool
  safe : Bool
deriving DecidableEq, Repr

/-! ## Regions (chapter 1) -/

/-- Handling of host writes while the region is IDLE (Table 1-2). -/
inductive Outside where
  | pass
  | refuse
deriving DecidableEq, Repr

/-- Handling of a group whose record cannot be admitted (Table 1-2). -/
inductive SpacePolicy where
  | wait
  | fail
  | abort
deriving DecidableEq, Repr

/-- What expiry does beyond raising AGE_EXPIRED (Table 1-2). -/
inductive AgeAction where
  | notify
  | abort
deriving DecidableEq, Repr

/-- The seven descriptor fields (Table 1-2). `size` is the number of lines. -/
structure Descriptor where
  enable : Bool
  base : Nat
  size : Nat
  outside : Outside
  space : SpacePolicy
  ageLimit : Nat
  ageAction : AgeAction
deriving DecidableEq, Repr

/-- The zero value of every field (R2). -/
def Descriptor.zero : Descriptor :=
  { enable := false, base := 0, size := 1, outside := .pass, space := .wait, ageLimit := 0, ageAction := .notify }

/-- A deferred apply (Table 1-1). -/
inductive PendingApply where
  | none
  | atClose
  | atBegin
deriving DecidableEq, Repr

/-- The transaction state of a region (Table 1-1); `opened` is the manual's OPEN. -/
inductive TxnState where
  | idle
  | opened
  | committing
  | rollingBack
  | faulted
deriving DecidableEq, Repr

/-- The rollback sub-state of a region (Table 1-1). -/
inductive SubState where
  | none
  | queued
  | draining
  | walking
  | closing
deriving DecidableEq, Repr

/-- A region context (Table 1-1), with the commit's drain set (R18), whether the commit has reached its record phase
(R20), and the model's mark of an expiry that the tick has still to take (R28, notes/assumptions/11.md). -/
structure Region where
  live : Descriptor
  staged : Descriptor
  pendingApply : PendingApply
  txn : TxnState
  number : Word32
  records : Nat
  firstIndex : Option Nat
  lastIndex : Option Nat
  saturated : Bool
  age : Nat
  sub : SubState
  drain : List HostTag
  recordPhase : Bool
  expiryDue : Bool
deriving DecidableEq, Repr

/-- The region context after reset (R1). -/
def Region.reset : Region :=
  { live := .zero, staged := .zero, pendingApply := .none, txn := .idle, number := 1, records := 0,
    firstIndex := none, lastIndex := none, saturated := false, age := 0, sub := .none, drain := [],
    recordPhase := false, expiryDue := false }

/-- A Line Directory entry (R60): PENDING, or DURABLE once its record is verified. -/
structure DirEntry where
  region : RegionId
  line : Nat
  durable : Bool
deriving DecidableEq, Repr

/-! ## The downstream port (chapter 9) -/

/-- The owner of a downstream request (R162). -/
inductive Owner where
  | entry (tag : HostTag)
  | logWriter
  | logManager
  | rollback
  | startup
deriving DecidableEq, Repr

/-- The issue classes, highest first (Table 9-2). -/
inductive IssueClass where
  | anchor
  | logWriter
  | rollback
  | host
deriving DecidableEq, Repr

/-- A request handed to the downstream port (R161). -/
structure DownRequest where
  owner : Owner
  op : Op
  addr : Nat
  count : Nat
  data : Line
  strobes : Word32
deriving DecidableEq, Repr

/-- A tag table entry (Table 9-1). An OUTSTANDING tag holds the request's owner, class, operation and address, the
value its response timer started with (R166), the time of issue in microseconds of ended Timebase periods, and
whether its owner still acts on the outcome (R172: a stopped owner discards it). -/
inductive Tag where
  | free
  | outstanding (owner : Owner) (cls : IssueClass) (op : Op) (addr : Nat) (timer : Nat) (issuedAt : Nat) (live : Bool)
  | quarantined (addr : Nat)
deriving DecidableEq, Repr

/-- The downstream port: the tag table (R162), the three class queues (R163) and the share count (R165). -/
structure Downstream where
  tags : Vector Tag 32
  anchorQueue : List DownRequest
  logQueue : List DownRequest
  rollQueue : List DownRequest
  share : Nat
deriving DecidableEq, Repr

/-- A verified unit being written (R101, R102): the blocks of one attempt with their contents, the attempts made, the
phase, how many requests of the phase are unanswered, and whether one of them has failed. -/
structure VerifiedUnit where
  blocks : List (Nat × Line)
  attempts : Nat
  readBack : Bool
  left : Nat
  failed : Bool
deriving DecidableEq, Repr

/-! ## The Log Manager (chapter 2) -/

/-- A ring geometry; N is `size / 32` (R32). -/
structure Geometry where
  base : Nat
  size : Nat
deriving DecidableEq, Repr

/-- What an anchor write is for (R53): a stride or admission trigger, the end of recovery, the two slots of FORMAT,
or the closing anchor of quiesce. -/
inductive AnchorPurpose where
  | reclaim
  | recovery
  | formatFirst
  | formatSecond
  | closing
deriving DecidableEq, Repr

/-- An anchor write in progress (R52): its slot, its snapshot and its verified unit. -/
structure AnchorWrite where
  purpose : AnchorPurpose
  slot : Fin 2
  sequence : Word32
  tail : Nat
  tailSeq : Word32
  unit : VerifiedUnit
deriving DecidableEq, Repr

/-- A deferred UNDO admission (R49). -/
structure Deferred where
  region : RegionId
  lines : Nat
deriving DecidableEq, Repr

/-- The Log Manager's state (Table 2-1), with the recovery anchor that waits for a stride anchor (R134) and the
entries FORMAT waits for before its anchor writes begin (R57). -/
structure LogState where
  geometry : Option Geometry
  generation : Word32
  nextSeq : Word32
  head : Nat
  volatileTail : Nat
  tailSeq : Word32
  durableTail : Nat
  slot : Option (Fin 2)
  anchorSeq : Word32
  unresolved : Nat
  firstSeqs : Vector (Option Word32) 8
  anchor : Option AnchorWrite
  anchorWanted : Bool
  deferred : Option Deferred
  below : Bool
  recoveryWanted : Bool
  formatPending : Bool
  formatDrain : List HostTag
deriving DecidableEq, Repr

/-- The Log Manager after reset (R31). -/
def LogState.reset : LogState :=
  { geometry := none, generation := 0, nextSeq := 0, head := 0, volatileTail := 0, tailSeq := 0, durableTail := 0,
    slot := none, anchorSeq := 0, unresolved := 0, firstSeqs := Vector.replicate 8 none, anchor := none,
    anchorWanted := false, deferred := none, below := false, recoveryWanted := false, formatPending := false,
    formatDrain := [] }

/-! ## The Log Writer (chapter 3) -/

/-- The record kinds of closing and undo records (Table 2-2). -/
inductive RecordKind where
  | undo
  | commit
  | abort
deriving DecidableEq, Repr

/-- The header contents of a record (R34, R35), less the two CRCs. -/
structure LogRecord where
  kind : RecordKind
  region : RegionId
  first : Bool
  recovery : Bool
  sequence : Word32
  number : Word32
  previous : Option Nat
  lines : List Nat
  generation : Word32
  firstIndex : Nat
deriving DecidableEq, Repr

/-- A line of a group: its address, whether a directory entry was inserted for it, the reads made of it and its old
contents once read (R64, R71). -/
structure GroupLine where
  addr : Nat
  inDirectory : Bool
  reads : Nat
  old : Option Line
deriving DecidableEq, Repr

/-- A group of first writes (R64): the request entries still in it and its lines, both in group order. -/
structure Group where
  region : RegionId
  number : Word32
  members : List HostTag
  lines : List GroupLine
deriving DecidableEq, Repr

/-- A HELD group with its retry-due flag (Table 3-1). -/
structure HeldGroup where
  group : Group
  retryDue : Bool
deriving DecidableEq, Repr

/-- Where a record is placed (R40, R48): its ring index, and the WRAP marker's ring index and sequence when one goes
first. -/
structure Placement where
  index : Nat
  marker : Option (Nat × Word32)
deriving DecidableEq, Repr

/-- What the builder is doing with its record: old-line reads (R71), the WRAP marker's unit, the record's unit (R72),
or waiting in quiesce for its last outstanding request (R142). -/
inductive BuildStage where
  | reading
  | marker (u : VerifiedUnit)
  | writing (u : VerifiedUnit)
  | finishing
deriving DecidableEq, Repr

/-- The record the builder is BUSY with (Table 3-1); a closing record has no group. -/
structure Build where
  record : LogRecord
  place : Placement
  group : Option Group
  stage : BuildStage
deriving DecidableEq, Repr

/-- A closing request (R65). -/
structure ClosingRequest where
  region : RegionId
  number : Word32
  kind : RecordKind
  firstIndex : Nat
  recovery : Bool
deriving DecidableEq, Repr

/-- The Log Writer's state (Table 3-1), with a grant held while the builder is BUSY (R69). -/
structure LogWriter where
  builder : Option Build
  closing : List ClosingRequest
  deferred : Option Group
  granted : Option Build
  held : Vector (Option HeldGroup) 8
  lastServed : RegionId
deriving DecidableEq, Repr

/-- The Log Writer after reset (R64). -/
def LogWriter.reset : LogWriter :=
  { builder := none, closing := [], deferred := none, granted := none, held := Vector.replicate 8 none,
    lastServed := 7 }

/-! ## The Rollback Engine (chapter 4) -/

/-- A record header as read from the ring (Table 11-10). -/
structure Header where
  kind : Nat
  region : Nat
  count : Nat
  flags : Nat
  sequence : Word32
  number : Word32
  previous : Nat
  addrs : List Nat
  generation : Word32
  firstIndex : Nat
  dataCrc : Word32
  crcGood : Bool
deriving DecidableEq, Repr

/-- One log block being read: the reads made of it and its contents once answered OK (R88, R104, R122). -/
structure BlockRead where
  reads : Nat
  contents : Option Line
deriving DecidableEq, Repr

/-- The Rollback Engine's state (Table 4-1). The engine is BUSY exactly while there is a walk region. `blocks` are the
reads of the record's log blocks, the two header blocks first; `buffer` is the data buffer once every data block is
read; `restore` is the line restore in progress, whose attempts are the attempt count. -/
structure Engine where
  queue : List RegionId
  walk : Option RegionId
  recovery : Bool
  drain : List HostTag
  index : Option Nat
  header : Option Header
  blocks : List BlockRead
  buffer : List Line
  lineIndex : Option Nat
  walked : Nat
  restore : Option VerifiedUnit
deriving DecidableEq, Repr

/-- The Rollback Engine after reset (R83). -/
def Engine.reset : Engine :=
  { queue := [], walk := none, recovery := false, drain := [], index := none, header := none, blocks := [],
    buffer := [], lineIndex := none, walked := 0, restore := none }

/-! ## The Start-up Controller (chapter 6) -/

/-- The outcome of reading an anchor slot: still being read, read, or exhausted (R119). -/
inductive SlotOutcome where
  | reading
  | read (contents : Line)
  | exhausted
deriving DecidableEq, Repr

/-- The reads made of an anchor slot and their outcome (R119). -/
structure SlotRead where
  reads : Nat
  outcome : SlotOutcome
deriving DecidableEq, Repr

/-- A candidate: a transaction whose first record the scan has met and whose closing record it has not (R122). -/
structure Candidate where
  number : Word32
  firstIndex : Nat
  firstSeq : Word32
  lastIndex : Nat
  records : Nat
deriving DecidableEq, Repr

/-- A region tracker of the scan (R122). -/
structure Tracker where
  seen : Option Word32
  candidate : Option Candidate
deriving DecidableEq, Repr

/-- The Start-up Controller's state: the two slot reads (R119) and the scan state (Table 6-3). -/
structure Startup where
  slots : Vector SlotRead 2
  position : Nat
  expected : Word32
  distance : Nat
  blocks : List BlockRead
  trackers : Vector Tracker 8
deriving DecidableEq, Repr

/-- The Start-up Controller as it enters START: both slots read once so far, the scan state as Table 6-1 gives. -/
def Startup.reset : Startup :=
  { slots := Vector.replicate 2 { reads := 1, outcome := .reading }, position := 0, expected := 0, distance := 0,
    blocks := [], trackers := Vector.replicate 8 { seen := none, candidate := none } }

/-! ## Faults and notices (chapters 5 and 10) -/

/-- The fault kinds (Table 5-3). -/
inductive FaultKind where
  | logWrite
  | anchorWrite
  | rollbackRead
  | rollbackWrite
  | dataWrite
  | passMedia
  | dportStalled
  | upstreamProtocol
  | configReject
  | recoveryRead
deriving DecidableEq, Repr

/-- A Fault Queue entry (Table 5-6). -/
structure FaultEntry where
  kind : FaultKind
  region : Option RegionId
  addr : Option Nat
  sequence : Option Word32
  attempts : Nat
  overwritten : Bool
deriving DecidableEq, Repr

/-- The Notice Controller (R175, R176): pending flags and priorities by source number, and the threshold. -/
structure Notices where
  flags : Vector Bool 28
  priority : Vector Nat 28
  threshold : Nat
deriving DecidableEq, Repr

/-- The Notice Controller after reset. -/
def Notices.reset : Notices :=
  { flags := Vector.replicate 28 false, priority := Vector.replicate 28 0, threshold := 0 }

/-! ## The upstream port (chapter 8) -/

/-- The class of a started request (R3). -/
inductive RequestClass where
  | logArea
  | region (r : RegionId)
  | unmapped
deriving DecidableEq, Repr

/-- The handling of a started request (Table 8-2). -/
inductive Handling where
  | passThrough
  | readForward
  | inPlace
  | firstWrite
  | drainWrite
deriving DecidableEq, Repr

/-- The states of an entry that is in the table (Table 8-4). A DONE entry has left the table (R150). -/
inductive EntryState where
  | waitOrder
  | waitRegion
  | waitLog
  | waitSpace
  | ready
  | issued
deriving DecidableEq, Repr

/-- A Request Table entry (Table 8-2). Its response is recorded in `State.responses` when it becomes DONE. -/
structure Entry where
  tag : HostTag
  op : Op
  addr : Nat
  count : Nat
  data : Line
  strobes : Word32
  cls : Option RequestClass
  handling : Option Handling
  state : EntryState
deriving DecidableEq, Repr

/-- The response reasons (Table 8-1). -/
inductive Reason where
  | none
  | protocol
  | logArea
  | refused
  | noSpace
  | aborted
  | regionFault
  | logFault
  | media
  | power
deriving DecidableEq, Repr

/-- The code of a reason (Table 8-1). -/
def Reason.code : Reason → BitVec 4
  | .none => 0x0
  | .protocol => 0x1
  | .logArea => 0x2
  | .refused => 0x3
  | .noSpace => 0x4
  | .aborted => 0x5
  | .regionFault => 0x6
  | .logFault => 0x7
  | .media => 0x8
  | .power => 0x9

/-- A response on the upstream response channel (R149). -/
structure Response where
  tag : HostTag
  reason : Reason
  data : List Word32
deriving DecidableEq, Repr

/-- The status a response carries (R149). -/
inductive Status where
  | ok
  | err
deriving DecidableEq, Repr

/-- A response's status: OK carries reason NONE, and ERR every other reason (R149). -/
def Response.status (x : Response) : Status := if x.reason = .none then .ok else .err

/-! ## Parameters, the Timebase and the management link -/

/-- The five parameters (Table 11-5). -/
structure Params where
  tickPeriod : Nat
  retryLimit : Nat
  anchorStride : Nat
  spaceWatermark : Nat
  dto : Nat
deriving DecidableEq, Repr

/-- The parameters after reset (Table 11-5). -/
def Params.reset : Params :=
  { tickPeriod := 100, retryLimit := 3, anchorStride := 256, spaceWatermark := 1024, dto := 50 }

/-- The Timebase (R26): the length of the running period and the microseconds of the periods that have ended. -/
structure Timebase where
  running : Nat
  elapsed : Nat
deriving DecidableEq, Repr

/-- The result codes (Table 11-2). -/
inductive ResultCode where
  | ok
  | state
  | noRegion
  | badArg
  | noLog
  | busy
  | overlap
deriving DecidableEq, Repr

/-- The result byte and the result data of a taken command, to be shifted out (R182). -/
structure Answer where
  result : ResultCode
  data : List Byte
deriving DecidableEq, Repr

/-- The frame in progress (R182): the command byte and the operand bytes received so far, the bits received of the next
byte, first bit first, the rising edges of SCK counted since the frame began, and the answer once the command is
taken. Its phase is `Frame.phase`. -/
structure Frame where
  received : List Byte
  bits : List Bool
  edges : Nat
  answer : Option Answer
deriving DecidableEq, Repr

/-- The management link: whether it ignores an assertion of SCS_N left over from reset (R187), and the frame in
progress, if any (R182). -/
structure Link where
  ignoring : Bool
  frame : Option Frame
deriving DecidableEq, Repr

/-! ## Outcomes -/

/-- Reasons the machine stops with a fault. There are none: every command of the block has an effect in every state,
if only that of leaving the state as it stands. -/
inductive Fault where
deriving DecidableEq, Repr

/-- Reasons a command is refused. -/
inductive Refusal where
  /-- Raised by `exec` for a command that has no meaning yet; no arm raises it. Safe. -/
  | notModelled (mnemonic : String)
deriving DecidableEq, Repr

/-! ## The whole part -/

/-- The state of the part. `responses` and `issued` record the transfers made on the upstream response channel and
the downstream request channel since the last reset, oldest first. `freeCount` counts the uses of the free value. -/
structure State where
  pending : List Instr
  inReset : Bool
  msize : Fin 4
  device : DeviceState
  powerFail : PowerFail
  issueAllowed : Bool
  regions : Vector Region 8
  directory : List DirEntry
  log : LogState
  writer : LogWriter
  engine : Engine
  startup : Startup
  faults : List FaultEntry
  notices : Notices
  table : List Entry
  dport : Downstream
  params : Params
  timebase : Timebase
  link : Link
  responses : List Response
  issued : List (DownTag × DownRequest)
  freeCount : Nat
deriving DecidableEq, Repr

/-- What a step or a command answers. -/
abbrev Out := Host.Outcome State Fault Refusal

/-- The memory size in bytes a sampled MSIZE code gives: 2, 4, 8 or 16 MiB (00_scope.md, R188). -/
def memorySizeOf (msize : Fin 4) : Nat := 2097152 * 2 ^ msize.val

/-- The full-block reads of the two anchor slots handed to the anchor class on entry to START (R119, R51), slot 0 first
(DESIGN CHOICE, notes/assumptions/33.md). -/
def slotReadRequests (msize : Fin 4) : List DownRequest :=
  [{ owner := .startup, op := .read, addr := memorySizeOf msize - 64, count := 8, data := 0, strobes := 0 },
   { owner := .startup, op := .read, addr := memorySizeOf msize - 32, count := 8, data := 0, strobes := 0 }]

/-- The part as it enters START when a reset ends (R118, Table 6-1), with `msize` sampled from the straps and
`selected` saying whether SCS_N is asserted at that moment (R187). -/
def State.afterReset (msize : Fin 4) (selected : Bool) (pending : List Instr) : State :=
  { pending := pending
    inReset := false
    msize := msize
    device := .start
    powerFail := { phase := .none, entry := none, stalled := false, safe := false }
    issueAllowed := false
    regions := Vector.replicate 8 .reset
    directory := []
    log := .reset
    writer := .reset
    engine := .reset
    startup := .reset
    faults := []
    notices := .reset
    table := []
    dport := { tags := Vector.replicate 32 .free, anchorQueue := slotReadRequests msize, logQueue := [],
               rollQueue := [], share := 0 }
    params := .reset
    timebase := { running := 100, elapsed := 0 }
    link := { ignoring := selected, frame := none }
    responses := []
    issued := []
    freeCount := 0 }

/-- The part right after reset. The straps' setting is the board's: the model takes MSIZE code 0 and SCS_N
deasserted (DESIGN CHOICE, notes/assumptions/2.md). -/
def State.reset : State := State.afterReset 0 false []

end Sys2Proof.Machine
end

