-- ==== Sys2Proof/Machine/Layout.lean ====
section
/-! DEFINITION. Layouts in memory (11_management_link.md, 11.4): fields stored least significant byte first, the
CRC-32, and the contents of record headers, WRAP markers and anchor slots. -/

namespace Sys2Proof.Machine

/-- A field of `len` bytes at byte offset `off` of a block held as one number (R193: least significant byte at the
lowest address). -/
def fieldAt (v off len : Nat) : Nat := v / 2 ^ (8 * off) % 2 ^ (8 * len)

/-- Fields, each a width in bytes and a value, packed from the lowest address up (R193). -/
def packFields : List (Nat × Nat) → Nat
  | [] => 0
  | (len, v) :: rest => v % 2 ^ (8 * len) + 2 ^ (8 * len) * packFields rest

/-- The CRC register after the `n` lowest bits of `m`, in ascending order (R37: ascending bytes, each least
significant bit first; 0xEDB88320 is the generator 0x04C11DB7 reflected). -/
def crcRegister : Nat → Nat → Nat → Nat
  | 0, _, reg => reg
  | n + 1, m, reg =>
    if (reg ^^^ m) % 2 = 1 then crcRegister n (m / 2) (reg / 2 ^^^ 0xEDB88320) else crcRegister n (m / 2) (reg / 2)

/-- The CRC-32 of R37 over the `bytes` lowest bytes of `m`. -/
def crc32 (bytes m : Nat) : Word32 :=
  BitVec.ofNat 32 (crcRegister (8 * bytes) m 0xFFFFFFFF ^^^ 0xFFFFFFFF)

/-- Blocks in ascending address order as one number, the first block lowest. -/
def joinBlocks : List Line → Nat
  | [] => 0
  | b :: rest => b.toNat + 2 ^ 256 * joinBlocks rest

/-- The data CRC over data blocks in ring order (R37), and 0 when there are none (R35). -/
def dataCrc (blocks : List Line) : Word32 :=
  if blocks.isEmpty then 0 else crc32 (32 * blocks.length) (joinBlocks blocks)

/-- The 32-bit value that stands for none (R193). -/
def none32 : Nat := 0xFFFFFFFF

/-- An optional index or address as a 32-bit field. -/
def orNone (x : Option Nat) : Nat := x.getD none32

/-! ## Records -/

/-- The kind code of a record (Table 2-2). -/
def RecordKind.code : RecordKind → Nat
  | .undo => 1
  | .commit => 2
  | .abort => 3

/-- The flags byte: FIRST in bit 0, RECOVERY in bit 1, bits 2 to 7 zero (R194). -/
def LogRecord.flags (r : LogRecord) : Nat := (if r.first then 1 else 0) + (if r.recovery then 2 else 0)

/-- The eight line address fields: the record's lines in group order, then 0xFFFFFFFF (R34). -/
def LogRecord.lineFields (r : LogRecord) : List (Nat × Nat) :=
  (List.range 8).map fun i => (4, r.lines.getD i none32)

/-- Header bytes 0 to 59 (Table 11-10), for a record whose data CRC is `crc`. -/
def LogRecord.body (r : LogRecord) (crc : Word32) : Nat :=
  packFields
    ([(1, r.kind.code), (1, r.region.val), (1, r.lines.length), (1, r.flags), (4, r.sequence.toNat),
      (4, r.number.toNat), (4, orNone r.previous)] ++ r.lineFields ++
     [(4, r.generation.toNat), (4, r.firstIndex), (4, crc.toNat)])

/-- The two header blocks of a record with the given data blocks, both CRCs computed (R37, R194). -/
def LogRecord.headerBlocks (r : LogRecord) (data : List Line) : List Line :=
  let body := r.body (dataCrc data)
  let header := body + 2 ^ 480 * (crc32 60 body).toNat
  [BitVec.ofNat 256 header, BitVec.ofNat 256 (header / 2 ^ 256)]

/-- The WRAP marker block of Table 11-11 (R36, R195). -/
def wrapBlock (sequence generation : Word32) : Line :=
  let body := packFields [(1, 4), (3, 0), (4, sequence.toNat), (4, generation.toNat), (16, 0)]
  BitVec.ofNat 256 (body + 2 ^ 224 * (crc32 28 body).toNat)

/-- The anchor block of Table 11-12 (R51, R195). -/
def anchorBlock (sequence : Word32) (g : Geometry) (generation : Word32) (tail : Nat) (tailSeq : Word32) : Line :=
  let body := packFields
    [(4, Config.anchorMarker), (4, sequence.toNat), (4, g.base), (4, g.size), (4, generation.toNat), (4, tail),
     (4, tailSeq.toNat)]
  BitVec.ofNat 256 (body + 2 ^ 224 * (crc32 28 body).toNat)

/-- The kind code in byte 0 of a block (R123). -/
def blockKind (b : Line) : Nat := fieldAt b.toNat 0 1

/-- A record header read from two blocks (Table 11-10). -/
def readHeader (a b : Line) : Header :=
  let v := joinBlocks [a, b]
  { kind := fieldAt v 0 1
    region := fieldAt v 1 1
    count := fieldAt v 2 1
    flags := fieldAt v 3 1
    sequence := BitVec.ofNat 32 (fieldAt v 4 4)
    number := BitVec.ofNat 32 (fieldAt v 8 4)
    previous := fieldAt v 12 4
    addrs := (List.range 8).map fun i => fieldAt v (16 + 4 * i) 4
    generation := BitVec.ofNat 32 (fieldAt v 48 4)
    firstIndex := fieldAt v 52 4
    dataCrc := BitVec.ofNat 32 (fieldAt v 56 4)
    crcGood := crc32 60 (fieldAt v 0 60) == BitVec.ofNat 32 (fieldAt v 60 4) }

/-- FIRST of a header read (R194). -/
def Header.first (h : Header) : Bool := h.flags % 2 == 1

/-- RECOVERY of a header read (R194). -/
def Header.recovery (h : Header) : Bool := h.flags / 2 % 2 == 1

/-- The first `n` line addresses of a header read. -/
def Header.lines (h : Header) : List Nat := h.addrs.take h.count

/-! ## Anchor slots as read -/

/-- The contents of an anchor slot as read (Table 11-12). -/
structure AnchorContents where
  sequence : Word32
  base : Nat
  size : Nat
  generation : Word32
  tail : Nat
  tailSeq : Word32
deriving DecidableEq, Repr

/-- The fields of a block read as an anchor slot. -/
def readAnchor (b : Line) : AnchorContents :=
  let v := b.toNat
  { sequence := BitVec.ofNat 32 (fieldAt v 4 4)
    base := fieldAt v 8 4
    size := fieldAt v 12 4
    generation := BitVec.ofNat 32 (fieldAt v 16 4)
    tail := fieldAt v 20 4
    tailSeq := BitVec.ofNat 32 (fieldAt v 24 4) }

/-- The validity tests of an anchor slot (R51), for a memory of `memory` bytes. -/
def anchorValid (memory : Nat) (b : Line) : Bool :=
  let v := b.toNat
  let a := readAnchor b
  fieldAt v 0 4 == Config.anchorMarker
    && crc32 28 (fieldAt v 0 28) == BitVec.ofNat 32 (fieldAt v 28 4)
    && a.base % 4096 == 0 && a.size % 4096 == 0 && decide (8192 ≤ a.size) && decide (a.size ≤ 2097152)
    && decide (a.base + a.size ≤ memory - 64)
    && a.generation != 0
    && decide (a.tail < a.size / 32)

/-- Anchor sequence `a` is ahead of `b` (R51). -/
def sequenceAhead (a b : Word32) : Bool :=
  decide (1 ≤ (a - b).toNat) && decide ((a - b).toNat ≤ 0x7FFFFFFF)

/-! ## Words of a line -/

/-- The first `count` data words of a request or response (R161). -/
def dataWords (count : Nat) (d : Line) : List Word32 :=
  (List.range count).map fun i => d.extractLsb' (32 * i) 32

end Sys2Proof.Machine
end

