-- ==== Sys2Proof/Machine/Ops.lean ====
section
/-! DEFINITION. The operations every block shares: updates of one block's state, notices, the Fault Queue, the
answering of host requests, and the handing of requests to the downstream port. -/

namespace Sys2Proof.Machine

/-! ## Updates of one part of the state -/

/-- Region `r`'s context (R1). -/
def State.region (s : State) (r : RegionId) : Region := s.regions.get r

/-- Region `r`'s context becomes `f` of what it is. -/
def State.updRegion (s : State) (r : RegionId) (f : Region → Region) : State :=
  { s with regions := s.regions.set r.val (f (s.region r)) }

/-- The Log Manager's state becomes `f` of what it is. -/
def State.updLog (s : State) (f : LogState → LogState) : State := { s with log := f s.log }

/-- The Log Writer's state becomes `f` of what it is. -/
def State.updWriter (s : State) (f : LogWriter → LogWriter) : State := { s with writer := f s.writer }

/-- The Rollback Engine's state becomes `f` of what it is. -/
def State.updEngine (s : State) (f : Engine → Engine) : State := { s with engine := f s.engine }

/-- The Start-up Controller's state becomes `f` of what it is. -/
def State.updStartup (s : State) (f : Startup → Startup) : State := { s with startup := f s.startup }

/-- The downstream port's state becomes `f` of what it is. -/
def State.updDport (s : State) (f : Downstream → Downstream) : State := { s with dport := f s.dport }

/-- The Power-Fail Controller's state becomes `f` of what it is. -/
def State.updPowerFail (s : State) (f : PowerFail → PowerFail) : State := { s with powerFail := f s.powerFail }

/-- The device state becomes `d`. -/
def State.setDevice (s : State) (d : DeviceState) : State := { s with device := d }

/-- The memory size in bytes (R2, R118). -/
def State.memorySize (s : State) : Nat := memorySizeOf s.msize

/-- The byte address of an anchor slot (R51). -/
def State.slotAddr (s : State) (slot : Fin 2) : Nat := s.memorySize - 64 + 32 * slot.val

/-- A line address: the byte address rounded down to a multiple of 32 (R58, R148). -/
def lineOf (addr : Nat) : Nat := addr / 32 * 32

/-- The region number of an operand byte, when it is 0 to 7. -/
def regionOf (b : Byte) : Option RegionId := if h : b.toNat < 8 then some ⟨b.toNat, h⟩ else none

/-! ## Notices (chapter 10) -/

/-- The COMMIT_DONE source of a region, 3r + 1 (R174). -/
def commitDone (r : RegionId) : Source := ⟨3 * r.val + 1, by omega⟩

/-- The ROLLBACK_DONE source of a region, 3r + 2 (R174). -/
def rollbackDone (r : RegionId) : Source := ⟨3 * r.val + 2, by omega⟩

/-- The AGE_EXPIRED source of a region, 3r + 3 (R174). -/
def ageExpired (r : RegionId) : Source := ⟨3 * r.val + 3, by omega⟩

/-- SPACE_LOW, source 25. -/
def spaceLow : Source := 25

/-- FAULT, source 26. -/
def faultSource : Source := 26

/-- STARTED, source 27. -/
def started : Source := 27

/-- A source's pending flag. -/
def State.flag (s : State) (src : Source) : Bool := s.notices.flags.get src

/-- The event of a source sets its flag to yes (R175). -/
def State.setNotice (s : State) (src : Source) : State :=
  { s with notices := { s.notices with flags := s.notices.flags.set src.val true } }

/-- A source signals when its flag is yes and its priority is above the threshold (R176). -/
def signals (n : Notices) (src : Source) : Bool :=
  n.flags.get src && decide (n.threshold < n.priority.get src)

/-- ALERT_N is asserted: some pending source's priority is above the threshold, and RESET_N is not asserted (R177). -/
def State.alert (s : State) : Bool := !s.inReset && allSources.any (signals s.notices)

/-! ## The Fault Queue (R113 to R115) -/

/-- A fault entry as pushed, before the queue decides its OVERWRITTEN flag. -/
def faultEntry (kind : FaultKind) (region : Option RegionId) (addr : Option Nat) (sequence : Option Word32)
    (attempts : Nat) : FaultEntry :=
  { kind := kind, region := region, addr := addr, sequence := sequence, attempts := attempts, overwritten := false }

/-- The queue after a push: the entry joins the tail, or replaces the newest entry of a full queue and carries
OVERWRITTEN yes (R114). -/
def pushEntry (q : List FaultEntry) (e : FaultEntry) : List FaultEntry :=
  if q.length < Config.faultQueueSize then q ++ [e] else q.dropLast ++ [{ e with overwritten := true }]

/-- A block pushes a fault, which sets FAULT pending (R114). -/
def State.pushFault (s : State) (e : FaultEntry) : State :=
  State.setNotice { s with faults := pushEntry s.faults e } faultSource

/-! ## The Request Table -/

/-- The entry holding a tag. -/
def State.entry (s : State) (tag : HostTag) : Option Entry := s.table.find? (fun e => e.tag == tag)

/-- The entry holding a tag becomes `f` of what it is. -/
def State.updEntry (s : State) (tag : HostTag) (f : Entry → Entry) : State :=
  { s with table := s.table.map fun e => if e.tag = tag then f e else e }

/-- The writes named leave WAIT_LOG or WAIT_SPACE for another of the waiting states; their handling stays. -/
def State.moveEntries (s : State) (tags : List HostTag) (st : EntryState) : State :=
  { s with
    table := s.table.map fun e =>
      if e.tag ∈ tags ∧ (e.state = .waitLog ∨ e.state = .waitSpace) then { e with state := st } else e }

/-- A write in WAIT_LOG is released as an in-place write (R73). -/
def State.releaseWrite (s : State) (tag : HostTag) : State :=
  s.updEntry tag fun e => if e.state = .waitLog then { e with state := .ready, handling := some .inPlace } else e

/-- Every drain set loses a tag: the commits' (R18), the walk's (R86) and FORMAT's (R57). -/
def State.drained (s : State) (tag : HostTag) : State :=
  let s := allRegions.foldl (fun s r => s.updRegion r fun x => { x with drain := x.drain.filter (· ≠ tag) }) s
  let s := s.updEngine fun e => { e with drain := e.drain.filter (· ≠ tag) }
  s.updLog fun l => { l with formatDrain := l.formatDrain.filter (· ≠ tag) }

/-- An entry becomes DONE: its response is given, it leaves the table and every drain set, and its tag is free
(R149, R150). -/
def State.answer (s : State) (e : Entry) (reason : Reason) (data : List Word32) : State :=
  State.drained
    { s with
      responses := s.responses ++ [{ tag := e.tag, reason := reason, data := data }]
      table := s.table.filter fun x => x.tag ≠ e.tag } e.tag

/-- The data words of an ERR response: zeros for a READ, none for a WRITE (R149). -/
def errorData (op : Op) (count : Nat) : List Word32 :=
  match op with
  | .read => List.replicate count 0
  | .write => []

/-- An entry is answered ERR with a reason. -/
def State.answerError (s : State) (e : Entry) (reason : Reason) : State :=
  s.answer e reason (errorData e.op e.count)

/-- Several entries are answered ERR, in the order given; the reason may depend on the entry. -/
def State.answerErrors (s : State) (es : List Entry) (reason : Entry → Reason) : State :=
  es.foldl (fun s e => s.answerError e (reason e)) s

/-- The entries holding the tags named, in table order. -/
def State.entriesOf (s : State) (tags : List HostTag) : List Entry := s.table.filter fun e => e.tag ∈ tags

/-- Request ready is asserted (R153): the device is in RUN, NOLOG or LOG_FAULT and an entry is free. -/
def State.requestReady (s : State) : Bool :=
  !s.inReset && (s.device == .run || s.device == .nolog || s.device == .logFault)
    && decide (s.table.length < Config.tableSize)

/-! ## Requests toward memory (chapter 9) -/

/-- A full-block READ (R161). -/
def readBlock (owner : Owner) (addr : Nat) : DownRequest :=
  { owner := owner, op := .read, addr := addr, count := 8, data := 0, strobes := 0 }

/-- A full-block WRITE with every byte strobe set (R161). -/
def writeBlock (owner : Owner) (addr : Nat) (data : Line) : DownRequest :=
  { owner := owner, op := .write, addr := addr, count := 8, data := data, strobes := 0xFFFFFFFF }

/-- Requests are handed to the anchor class queue (R163). -/
def State.handAnchor (s : State) (qs : List DownRequest) : State :=
  s.updDport fun d => { d with anchorQueue := d.anchorQueue ++ qs }

/-- Requests are handed to the log writer class queue (R163). -/
def State.handLog (s : State) (qs : List DownRequest) : State :=
  s.updDport fun d => { d with logQueue := d.logQueue ++ qs }

/-- Requests are handed to the rollback class queue (R163). -/
def State.handRoll (s : State) (qs : List DownRequest) : State :=
  s.updDport fun d => { d with rollQueue := d.rollQueue ++ qs }

/-- A downstream tag's entry (R162). -/
def State.tag (s : State) (t : DownTag) : Tag := s.dport.tags.get t

/-- A downstream tag's entry becomes `x`. -/
def State.setTag (s : State) (t : DownTag) (x : Tag) : State :=
  s.updDport fun d => { d with tags := d.tags.set t.val x }

/-- Every downstream tag's entry becomes `f` of what it is. -/
def State.mapTags (s : State) (f : Tag → Tag) : State :=
  allTags.foldl (fun s t => s.setTag t (f (s.tag t))) s

/-- An OUTSTANDING tag of an owner is marked: the owner has stopped and discards the outcome (R172). -/
def Tag.discardedBy (o : Owner) : Tag → Tag
  | .outstanding owner cls op addr timer issuedAt live =>
    .outstanding owner cls op addr timer issuedAt (live && !(owner == o))
  | t => t

/-- A stopped owner discards the outcomes of the requests it has issued (R172). -/
def State.discardOutcomes (s : State) (o : Owner) : State := s.mapTags (Tag.discardedBy o)

/-- A stopped owner withdraws its unissued requests from the class queues (R163). -/
def State.withdraw (s : State) (o : Owner) : State :=
  s.updDport fun d =>
    { d with
      anchorQueue := d.anchorQueue.filter fun q => q.owner ≠ o
      logQueue := d.logQueue.filter fun q => q.owner ≠ o
      rollQueue := d.rollQueue.filter fun q => q.owner ≠ o }

/-- An owner stops its work (R163, R172). -/
def State.stopOwner (s : State) (o : Owner) : State := (s.withdraw o).discardOutcomes o

/-- A tag is OUTSTANDING. -/
def Tag.isOutstanding : Tag → Bool
  | .outstanding _ _ _ _ _ _ _ => true
  | _ => false

/-- A tag is OUTSTANDING for an owner. -/
def Tag.outstandingFor (o : Owner) : Tag → Bool
  | .outstanding owner _ _ _ _ _ _ => owner == o
  | _ => false

/-- A tag is QUARANTINED (R162). -/
def Tag.isQuarantined : Tag → Bool
  | .quarantined _ => true
  | _ => false

/-- A tag is QUARANTINED and holds an address satisfying `p`. -/
def Tag.quarantinedAt (p : Nat → Bool) : Tag → Bool
  | .quarantined addr => p addr
  | _ => false

/-- Some tag's entry satisfies `p`. -/
def State.anyTag (s : State) (p : Tag → Bool) : Bool := allTags.any fun t => p (s.tag t)

/-- The number of tags whose entry satisfies `p`. -/
def State.countTags (s : State) (p : Tag → Bool) : Nat := allTags.countP fun t => p (s.tag t)

/-- The FREE tag with the lowest number (R162). -/
def State.lowestFree (s : State) : Option DownTag := allTags.find? fun t => s.tag t == .free

/-- The port is stalled: all 32 tags are QUARANTINED (R170). -/
def State.portStalled (s : State) : Bool := allTags.all fun t => (s.tag t).isQuarantined

/-! ## Attempts on a verified unit (R102, R103) -/

/-- A unit at its first attempt: every block write handed. -/
def VerifiedUnit.fresh (blocks : List (Nat × Line)) : VerifiedUnit :=
  { blocks := blocks, attempts := 1, readBack := false, left := blocks.length, failed := false }

/-- The block writes of an attempt, in ring order. -/
def VerifiedUnit.writes (u : VerifiedUnit) (o : Owner) : List DownRequest :=
  u.blocks.map fun b => writeBlock o b.1 b.2

/-- The read-backs of an attempt (R102), in the order of its writes (DESIGN CHOICE, notes/assumptions/33.md). -/
def VerifiedUnit.readBacks (u : VerifiedUnit) (o : Owner) : List DownRequest :=
  u.blocks.map fun b => readBlock o b.1

/-- What a unit does with one outcome. -/
inductive UnitStep where
  | waiting (u : VerifiedUnit)
  | readBack (u : VerifiedUnit)
  | rewrite (u : VerifiedUnit)
  | exhausted (attempts : Nat)
  | durable
deriving DecidableEq, Repr

/-- Whether an outcome fails the attempt: an ERR or a timeout, or a read-back that differs from the contents written
(R102). -/
def VerifiedUnit.bad (u : VerifiedUnit) (addr : Nat) (outcome : Option Line) : Bool :=
  match outcome with
  | none => true
  | some d => u.readBack && !(u.blocks.any fun b => b.1 == addr && b.2 == d)

/-- The attempt is judged when every request it issued has been answered or has timed out: a failed attempt is
followed by a rewrite while the rewrites made are fewer than the limit (R103), and a good write phase by the
read-backs (R102). -/
def VerifiedUnit.judge (u : VerifiedUnit) (limit : Nat) : UnitStep :=
  if u.left ≠ 0 then .waiting u
  else if u.failed then
    if u.attempts - 1 < limit then
      .rewrite { u with attempts := u.attempts + 1, readBack := false, left := u.blocks.length, failed := false }
    else .exhausted u.attempts
  else if u.readBack then .durable
  else .readBack { u with readBack := true, left := u.blocks.length }

/-- One outcome of an attempt's request is taken. -/
def VerifiedUnit.take (u : VerifiedUnit) (limit addr : Nat) (outcome : Option Line) : UnitStep :=
  VerifiedUnit.judge { u with left := u.left - 1, failed := u.failed || u.bad addr outcome } limit

end Sys2Proof.Machine
end

