-- ==== Sys2Proof/Machine/Regions.lean ====
section
/-! DEFINITION. Regions and the Request Table: classification, the handling of a request on its start, descriptor
checks, the return to IDLE and the entry to FAULTED (01_regions_and_transactions.md, 08_upstream_port.md). -/

namespace Sys2Proof.Machine

/-! ## Windows and classification -/

/-- A byte address lies in a descriptor's window, BASE up to BASE + 32 × SIZE (Table 1-2). -/
def Descriptor.holds (d : Descriptor) (addr : Nat) : Bool :=
  decide (d.base ≤ addr) && decide (addr < d.base + 32 * d.size)

/-- A byte address lies in the log area (R32). -/
def Geometry.holds (g : Geometry) (addr : Nat) : Bool := decide (g.base ≤ addr) && decide (addr < g.base + g.size)

/-- N, the number of log blocks (R32). -/
def Geometry.blocks (g : Geometry) : Nat := g.size / 32

/-- A byte address lies in one of the two anchor blocks (R51). -/
def State.inAnchors (s : State) (addr : Nat) : Bool :=
  decide (s.memorySize - 64 ≤ addr) && decide (addr < s.memorySize)

/-- A byte address lies in the log area while a ring geometry is held (R3). -/
def State.inLogArea (s : State) (addr : Nat) : Bool :=
  match s.log.geometry with
  | some g => g.holds addr
  | none => false

/-- The lowest-numbered region whose live ENABLE is yes and whose live window holds an address (R3, step 2). -/
def State.regionAt (s : State) (addr : Nat) : Option RegionId :=
  allRegions.find? fun r => (s.region r).live.enable && (s.region r).live.holds addr

/-- The Region Classifier (R3). -/
def State.classify (s : State) (addr : Nat) : RequestClass :=
  if s.inAnchors addr || s.inLogArea addr then .logArea
  else
    match s.regionAt addr with
    | some r => .region r
    | none => .unmapped

/-! ## The Line Directory -/

/-- The directory holds a DURABLE entry for a region and a line (R58). -/
def State.directoryHit (s : State) (r : RegionId) (line : Nat) : Bool :=
  s.directory.any fun d => d.region == r && d.line == line && d.durable

/-- Every directory entry of a region is freed (R60). -/
def State.freeDirectory (s : State) (r : RegionId) : State :=
  { s with directory := s.directory.filter fun d => d.region ≠ r }

/-- The PENDING entries a group inserted are removed (R62). -/
def State.dropPending (s : State) (r : RegionId) (lines : List Nat) : State :=
  { s with directory := s.directory.filter fun d => !(d.region == r && !d.durable && decide (d.line ∈ lines)) }

/-- The entries a group inserted that are still present become DURABLE (R62, R73). -/
def State.makeDurable (s : State) (r : RegionId) (lines : List Nat) : State :=
  { s with directory := s.directory.map fun d => if d.region = r ∧ d.line ∈ lines then { d with durable := true } else d }

/-- The number of directory entries a region holds (R60). -/
def State.directoryCount (s : State) (r : RegionId) : Nat := s.directory.countP fun d => d.region == r

/-! ## A request on its start (R156, Table 8-5) -/

/-- What a request does on its start: a state and a handling, or an ERR response. -/
inductive Placing where
  | go (st : EntryState) (h : Option Handling)
  | refuse (reason : Reason)
deriving DecidableEq, Repr

/-- The lookup of a write in an OPEN or drain-set region (R58): a hit is READY in place, a miss waits for the Log
Writer with handling `miss`. -/
def State.lookup (s : State) (r : RegionId) (addr : Nat) (miss : Handling) : Placing :=
  if s.directoryHit r (lineOf addr) then .go .ready (some .inPlace) else .go .waitLog (some miss)

/-- A request classified to a region, by the region's transaction state (Table 1-4, Table 8-5). -/
def State.placeByRegion (s : State) (r : RegionId) (e : Entry) : Placing :=
  match (s.region r).txn, e.op with
  | .idle, .read | .opened, .read | .committing, .read => .go .ready (some .readForward)
  | .idle, .write =>
    match (s.region r).live.outside with
    | .pass => .go .ready (some .passThrough)
    | .refuse => .refuse .refused
  | .opened, .write => s.lookup r e.addr .firstWrite
  | .committing, .write =>
    if e.tag ∈ (s.region r).drain then s.lookup r e.addr .drainWrite else .go .waitRegion none
  | .rollingBack, _ => .go .waitRegion none
  | .faulted, _ => .refuse .regionFault

/-- A request on its start, by its class, the device state and the region state (R156); in LOG_FAULT every write of an
enabled region is refused (R12, R110). -/
def State.placing (s : State) (e : Entry) : RequestClass → Placing
  | .logArea => .refuse .logArea
  | .unmapped => .go .ready (some .passThrough)
  | .region r => if s.device = .logFault ∧ e.op = .write then .refuse .logFault else s.placeByRegion r e

/-- An entry starts, or is classified again at its release: it is given a class, and then a state and handling or an
ERR response (R3, R4, R156). -/
def State.startEntry (s : State) (e : Entry) : State :=
  let cls := s.classify e.addr
  match s.placing e cls with
  | .go st h => s.updEntry e.tag fun x => { x with cls := some cls, state := st, handling := h }
  | .refuse reason => s.answerError e reason

/-- An older entry for the same line is still in the table (R155). -/
def State.olderSameLine (s : State) (e : Entry) : Bool :=
  (s.table.takeWhile fun x => x.tag ≠ e.tag).any fun x => lineOf x.addr == lineOf e.addr

/-- A QUARANTINED tag holds an address in an entry's line (R155). -/
def State.lineQuarantined (s : State) (e : Entry) : Bool :=
  s.anyTag (Tag.quarantinedAt fun a => lineOf a == lineOf e.addr)

/-- The same-line order lets an entry start (R155). -/
def State.mayStart (s : State) (e : Entry) : Bool :=
  e.state == .waitOrder && !s.olderSameLine e && !s.lineQuarantined e

/-! ## Descriptor checks and applies -/

/-- Two spans of bytes share one, each given by its first byte and its length. -/
def spansMeet (a la b lb : Nat) : Bool := decide (a < b + lb) && decide (b < a + la)

/-- The checks of R5 on region `r`'s staged descriptor, against the live descriptors and the ring geometry as they
stand. -/
def State.stagedPasses (s : State) (r : RegionId) : Bool :=
  let d := (s.region r).staged
  !d.enable ||
    (decide (d.base + 32 * d.size ≤ s.memorySize - 64)
      && (match s.log.geometry with
          | some g => !spansMeet d.base (32 * d.size) g.base g.size
          | none => true)
      && allRegions.all fun q =>
          q == r || !(s.region q).live.enable ||
            !spansMeet d.base (32 * d.size) (s.region q).live.base (32 * (s.region q).live.size))

/-- The staged copy becomes live and the pending apply NONE (R7). -/
def State.applyStaged (s : State) (r : RegionId) : State :=
  s.updRegion r fun x => { x with live := x.staged, pendingApply := .none }

/-- The pending apply becomes `p`. -/
def State.setApply (s : State) (r : RegionId) (p : PendingApply) : State :=
  s.updRegion r fun x => { x with pendingApply := p }

/-- The deferred AT_CLOSE apply of a return to IDLE (R11). -/
def State.applyAtReturn (s : State) (r : RegionId) : State :=
  if (s.region r).pendingApply = .atClose then
    if s.stagedPasses r then s.applyStaged r
    else (s.setApply r .none).pushFault (faultEntry .configReject (some r) none none 0)
  else s

/-! ## Return to IDLE and entry to FAULTED -/

/-- The transaction number that follows `n` (R16): 1 follows 0xFFFFFFFF, and 0 is never used. -/
def nextNumber (n : Word32) : Word32 := if n = 0xFFFFFFFF then 1 else n + 1

/-- The entries of a region held in WAIT_REGION, in acceptance order. -/
def State.heldEntries (s : State) (r : RegionId) : List Entry :=
  s.table.filter fun e => e.state == .waitRegion && e.cls == some (.region r)

/-- Every entry of a region held in WAIT_REGION is released and classified again, in acceptance order (R4). -/
def State.releaseHeld (s : State) (r : RegionId) : State :=
  (s.heldEntries r).foldl State.startEntry s

/-- A region returns to IDLE, steps 1 to 5 of R23; `number` gives the transaction number it takes. Step 6, the notice,
is set by the cause. -/
def State.returnToIdle (s : State) (r : RegionId) (number : Word32 → Word32) : State :=
  let s := s.updRegion r fun x =>
    { x with txn := .idle, sub := .none, drain := [], recordPhase := false, expiryDue := false }
  let s := s.freeDirectory r
  let s := s.updRegion r fun x => { x with number := number x.number }
  (s.applyAtReturn r).releaseHeld r

/-- The reason a request of a region entering FAULTED is answered with (R24). -/
def State.faultedReason (s : State) (e : Entry) : Reason :=
  if e.op = .write ∧ s.device = .logFault then .logFault else .regionFault

/-- The entries a region's entry to FAULTED answers: those waiting in WAIT_REGION, WAIT_LOG or WAIT_SPACE (R24), and
its released writes still READY (R81). -/
def State.faultedEntries (s : State) (r : RegionId) : List Entry :=
  s.table.filter fun e =>
    e.cls == some (.region r) &&
      (e.state == .waitRegion || e.state == .waitLog || e.state == .waitSpace ||
        (e.state == .ready && e.handling == some .inPlace))

/-- A region enters FAULTED (R24, R81). -/
def State.enterFaulted (s : State) (r : RegionId) : State :=
  let s := s.updRegion r fun x =>
    { x with txn := .faulted, sub := .none, drain := [], recordPhase := false, expiryDue := false }
  let s := s.freeDirectory r
  s.answerErrors (s.faultedEntries r) s.faultedReason

end Sys2Proof.Machine
end

