-- ==== Sys2Proof/Machine/Log.lean ====
section
/-! DEFINITION. The Log Manager (02_the_journal_log.md): free space, placement, admission, anchors, resolution and the
space level. -/

namespace Sys2Proof.Machine

/-! ## Free space and the space level -/

/-- N of the ring geometry held, 0 when none is (R32, R190). -/
def LogState.ring (l : LogState) : Nat :=
  match l.geometry with
  | some g => g.blocks
  | none => 0

/-- The distance from ring index `a` forward to `b` (R32). -/
def ringDistance (n a b : Nat) : Nat := (b + n - a) % n

/-- Free space (R46); 0 while the geometry is none (R190). -/
def LogState.free (l : LogState) : Nat :=
  if l.ring = 0 then 0 else l.ring - ringDistance l.ring l.durableTail l.head

/-- The byte address of a ring block (R32). -/
def State.blockAddr (s : State) (index : Nat) : Nat :=
  match s.log.geometry with
  | some g => g.base + 32 * index
  | none => 32 * index

/-- Free space has changed from `old`: it is compared with SPACE_WATERMARK (R54). -/
def State.noteFree (s : State) (old : Nat) : State :=
  if s.log.free = old then s
  else if s.log.free < s.params.spaceWatermark then
    if s.log.below then s else (s.updLog fun l => { l with below := true }).setNotice spaceLow
  else s.updLog fun l => { l with below := false }

/-- The space level is set directly from the free space that stands, without a notice (R54). -/
def State.setLevel (s : State) : State :=
  s.updLog fun l => { l with below := decide (l.free < s.params.spaceWatermark) }

/-! ## Placement at the head (R40) -/

/-- The head a placement of `size` blocks leaves (R40). -/
def LogState.headAfter (l : LogState) (size : Nat) : Nat :=
  if size ≤ l.ring - l.head then (if l.head + size = l.ring then 0 else l.head + size) else size

/-- The wrap waste of a placement of `size` blocks (R40, R47). -/
def LogState.waste (l : LogState) (size : Nat) : Nat := if size ≤ l.ring - l.head then 0 else l.ring - l.head

/-- Where a record of `size` blocks goes, and its sequence: a WRAP marker placed ahead of it takes its sequence first
(R38, R40). -/
def LogState.placement (l : LogState) (size : Nat) : Placement × Word32 :=
  if size ≤ l.ring - l.head then ({ index := l.head, marker := none }, l.nextSeq)
  else ({ index := 0, marker := some (l.head, l.nextSeq) }, l.nextSeq + 1)

/-- The head and next record sequence after a placement of `size` blocks (R38, R40), and the space level (R54). -/
def State.placeAtHead (s : State) (size : Nat) : State :=
  let old := s.log.free
  let seq := (s.log.placement size).2
  (s.updLog fun l => { l with head := l.headAfter size, nextSeq := seq + 1 }).noteFree old

/-! ## Admission (R47) -/

/-- U′ of the admission test. -/
def LogState.unresolvedWith (l : LogState) (first : Bool) : Nat := if first then l.unresolved + 1 else l.unresolved

/-- The end correction c of the admission test. -/
def LogState.endCorrection (l : LogState) (first : Bool) (lines : Nat) : Nat :=
  let left := l.ring - l.headAfter (2 + lines)
  if left % 2 = 1 ∧ left < 2 * l.unresolvedWith first then 1 else 0

/-- The admission test of an UNDO record of `lines` lines; `first` when it is its transaction's first record (R47). -/
def LogState.admits (l : LogState) (first : Bool) (lines : Nat) : Bool :=
  decide (2 + lines + l.waste (2 + lines) + (2 * l.unresolvedWith first + 1 + l.endCorrection first lines) ≤ l.free)

/-! ## Anchors -/

/-- The slot an anchor write goes to: the one that is not current, or slot 0 (R52). -/
def LogState.nextSlot (l : LogState) : Fin 2 :=
  match l.slot with
  | some 0 => 1
  | some _ => 0
  | none => 0

/-- An anchor write starts (R52): it takes its snapshot and its block is handed to the anchor class. Without a ring
geometry no anchor is written (R31). -/
def State.startAnchor (s : State) (purpose : AnchorPurpose) : State :=
  match s.log.geometry with
  | none => s
  | some g =>
    let slot := s.log.nextSlot
    let seq := s.log.anchorSeq + 1
    let block := anchorBlock seq g s.log.generation s.log.volatileTail s.log.tailSeq
    let u := VerifiedUnit.fresh [(s.slotAddr slot, block)]
    (s.updLog fun l =>
      { l with anchor := some { purpose := purpose, slot := slot, sequence := seq, tail := l.volatileTail,
                                tailSeq := l.tailSeq, unit := u } }).handAnchor (u.writes .logManager)

/-- The stride condition holds (R53). -/
def State.strideDue (s : State) : Bool :=
  let d := ringDistance s.log.ring s.log.durableTail s.log.volatileTail
  decide (0 < d) && decide (s.params.anchorStride ≤ d) && (s.device == .run || s.device == .restoring)

/-- The stride trigger (R53): an anchor write starts, or becomes wanted while one is in progress. -/
def State.strideTrigger (s : State) : State :=
  if s.strideDue then
    if s.log.anchor.isSome then s.updLog fun l => { l with anchorWanted := true } else s.startAnchor .reclaim
  else s

/-- The space event: every HELD group becomes retry-due (R50, R76). -/
def State.spaceEvent (s : State) : State :=
  allRegions.foldl (fun s r => s.updWriter fun w =>
    { w with held := w.held.set r.val ((w.held.get r).map fun h => { h with retryDue := true }) }) s

/-! ## Resolution (R43, R44) -/

/-- The unresolved first records: each region's first-record index with its first-record sequence (R43). -/
def State.firstRecords (s : State) : List (Nat × Word32) :=
  allRegions.filterMap fun r =>
    match s.log.firstSeqs.get r, (s.region r).firstIndex with
    | some seq, some i => some (i, seq)
    | _, _ => none

/-- Of two first records, the ring-earlier from the durable tail (R32). -/
def earlier (n tail : Nat) (a b : Nat × Word32) : Nat × Word32 :=
  if ringDistance n tail b.1 < ringDistance n tail a.1 then b else a

/-- The volatile tail and tail sequence: the ring-earliest first record still unresolved, or the head and the next
record sequence when none is (R44). -/
def State.earliestTail (s : State) : Nat × Word32 :=
  match s.firstRecords with
  | [] => (s.log.head, s.log.nextSeq)
  | x :: rest => rest.foldl (earlier s.log.ring s.log.durableTail) x

/-- The volatile tail and tail sequence are recomputed (R44). -/
def State.recomputeTail (s : State) : State :=
  let t := s.earliestTail
  s.updLog fun l => { l with volatileTail := t.1, tailSeq := t.2 }

/-- A transaction is resolved: U falls, its first-record sequence becomes none, the volatile tail is recomputed, and a
move of it sends a space event and the stride trigger (R43, R44, R50, R53). -/
def State.resolve (s : State) (r : RegionId) : State :=
  let old := s.log.volatileTail
  let s := s.updLog fun l => { l with unresolved := l.unresolved - 1, firstSeqs := l.firstSeqs.set r.val none }
  let s := s.recomputeTail
  if s.log.volatileTail = old then s else s.spaceEvent.strideTrigger

/-- The Log Manager's part of a granted admission of a region's record (R48): placement, and for the transaction's
first record the count, the first-record sequence and, when U was 0, the volatile tail (R43, R44). -/
def State.admitRecord (s : State) (r : RegionId) (first : Bool) (lines : Nat) : State :=
  let p := s.log.placement (2 + lines)
  let u := s.log.unresolved
  let s := s.placeAtHead (2 + lines)
  if first then
    s.updLog fun l =>
      { l with unresolved := u + 1, firstSeqs := l.firstSeqs.set r.val (some p.2),
               volatileTail := if u = 0 then p.1.index else l.volatileTail,
               tailSeq := if u = 0 then p.2 else l.tailSeq }
  else s

end Sys2Proof.Machine
end

