-- ==== Sys2Proof/Machine/Transactions.lean ====
section
/-! DEFINITION. The ways a transaction ends, shared by commands and events: the abort (R22, R80), the completion of a
commit (R21), the end of a walk (R94, step 4) and the device's entry to LOG_FAULT (R108, R109). -/

namespace Sys2Proof.Machine

/-! ## Groups -/

/-- The members of the groups admitted to the ring for a region: the builder's IN_PROGRESS group, and a group whose
grant is held while the builder is BUSY (R64, R69). -/
def State.busyMembers (s : State) (r : RegionId) : List HostTag :=
  let of (b : Option Build) : List HostTag :=
    match b with
    | some x =>
      match x.group with
      | some g => if g.region = r then g.members else []
      | none => []
    | none => []
  of s.writer.builder ++ of s.writer.granted

/-- A build is of a group of region `r`. -/
def Build.ofRegion (b : Build) (r : RegionId) : Bool :=
  match b.group with
  | some g => g.region == r
  | none => false

/-- The Log Writer holds a group of the region that is admitted to the ring (R22, R99). -/
def State.hasBusyGroup (s : State) (r : RegionId) : Bool :=
  s.writer.builder.any (fun b => b.ofRegion r) || s.writer.granted.any (fun b => b.ofRegion r)

/-- The writes of a region an abort moves to WAIT_REGION: those in WAIT_SPACE, and those in WAIT_LOG that are in no
admitted group (R22, R80). -/
def State.abortMoves (s : State) (r : RegionId) : List HostTag :=
  (s.table.filter fun e =>
    e.cls == some (.region r) &&
      (e.state == .waitSpace || (e.state == .waitLog && !decide (e.tag ∈ s.busyMembers r)))).map Entry.tag

/-- The HELD group of a region is discarded, and its DEFERRED group withdrawn and discarded (R79, R80). -/
def State.dropWaitingGroups (s : State) (r : RegionId) : State :=
  let s := s.updWriter fun w => { w with held := w.held.set r.val none }
  if s.writer.deferred.any fun g => g.region == r then
    (s.updWriter fun w => { w with deferred := none }).updLog fun l => { l with deferred := none }
  else s

/-- A region with records joins the rollback queue (R22, R84). -/
def State.queueWalk (s : State) (r : RegionId) : State :=
  (s.updRegion r fun x =>
    { x with txn := .rollingBack, sub := .queued, drain := [], recordPhase := false, expiryDue := false }).updEngine
      fun e => { e with queue := e.queue ++ [r] }

/-- An abort is taken on a region (R22): by command, by expiry (R29) or by the space policy (R78). -/
def State.abortTxn (s : State) (r : RegionId) : State :=
  let s := s.moveEntries (s.abortMoves r) .waitRegion
  let s := s.dropWaitingGroups r
  if (s.region r).records = 0 ∧ s.hasBusyGroup r = false then
    (s.returnToIdle r nextNumber).setNotice (rollbackDone r)
  else (s.freeDirectory r).queueWalk r

/-- A commit completes (R21). -/
def State.completeCommit (s : State) (r : RegionId) : State :=
  let s := if (s.region r).records = 0 then s else s.resolve r
  (s.returnToIdle r nextNumber).setNotice (commitDone r)

/-! ## The end of a walk -/

/-- The engine becomes IDLE and issues no further request for its walk (R94, step 4; R95, R97). It discards the outcomes of
the reads still outstanding for a failed walk (DEDUCED, notes/assumptions/35.md). -/
def State.endWalk (s : State) : State :=
  (s.stopOwner .rollback).updEngine fun e =>
    { e with walk := none, recovery := false, drain := [], index := none, header := none, blocks := [], buffer := [],
             lineIndex := none, restore := none }

/-- A walk completes when its ABORT record is durable (R94). -/
def State.completeWalk (s : State) (r : RegionId) : State :=
  (((s.resolve r).returnToIdle r nextNumber).setNotice (rollbackDone r)).endWalk

/-- A walk fails: its fault is pushed, its region enters FAULTED and the engine ends the walk (R95, R96). -/
def State.failWalk (s : State) (r : RegionId) (e : FaultEntry) : State :=
  ((s.pushFault e).enterFaulted r).endWalk

/-! ## Entry to LOG_FAULT -/

/-- The Log Writer stops (R108, step 3): its requests are withdrawn or discarded, its record abandoned, the closing
queue emptied and every group discarded. -/
def State.stopWriter (s : State) : State :=
  (s.stopOwner .logWriter).updWriter fun w =>
    { w with builder := none, closing := [], deferred := none, granted := none, held := Vector.replicate 8 none }

/-- The entries waiting on the Log Writer: untaken first writes and the members of every group (R108, step 3). -/
def State.writerEntries (s : State) : List Entry :=
  s.table.filter fun e => e.state == .waitLog || e.state == .waitSpace

/-- A region at the device's entry to LOG_FAULT (R109). -/
def State.logFaultRegion (s : State) (r : RegionId) : State :=
  match (s.region r).txn with
  | .idle | .faulted => s
  | .opened => if (s.region r).records = 0 then s.returnToIdle r nextNumber else s.enterFaulted r
  | .committing =>
    if (s.region r).records = 0 then (s.returnToIdle r nextNumber).setNotice (commitDone r) else s.enterFaulted r
  | .rollingBack => s.enterFaulted r

/-- Start-up ends: STARTED is set pending (R135). The upstream port opens with the device state entered (R153). -/
def State.endStartup (s : State) : State := s.setNotice started

/-- Steps 1 to 5 of the entry to LOG_FAULT from RUN or RESTORING (R108, R109). The regions are dealt with in ascending
number, which decides between two AT_CLOSE applies that exclude each other and orders the CONFIG_REJECT pushes of R11
(DESIGN CHOICE, notes/assumptions/30.md). -/
def State.stopForLogFault (s : State) : State :=
  let s := s.setDevice .logFault
  let s := s.updLog fun l => { l with deferred := none, anchorWanted := false, recoveryWanted := false }
  let s := s.stopWriter
  let s := s.answerErrors s.writerEntries fun _ => .logFault
  let s := s.endWalk.updEngine fun e => { e with queue := [] }
  allRegions.foldl State.logFaultRegion s

/-- The outcome of an exhausted log unit, old-line read or anchor for the device, its fault pushed (R107): LOG_FAULT
from RUN, from RESTORING with the end of start-up (R133, R135), and from FORMATTING (R57); in QUIESCING and LOG_FAULT
the device state stays. -/
def State.logSideFailure (s : State) : State :=
  match s.device with
  | .run => s.stopForLogFault
  | .restoring => s.stopForLogFault.endStartup
  | .formatting => s.setDevice .logFault
  | _ => s

end Sys2Proof.Machine
end

