-- ==== Sys2Proof/Machine/Writer.lean ====
section
/-! DEFINITION. The Log Writer (03_the_write_path.md): groups, admission and its answers, the space policies, the
builder and its record, and closing records. -/

namespace Sys2Proof.Machine

/-! ## Taking a group (R61, R68) -/

/-- The tags that are members of a group in any state. -/
def State.groupTags (s : State) : List HostTag :=
  let of (b : Option Build) : List HostTag := (b.bind Build.group).elim [] Group.members
  of s.writer.builder ++ of s.writer.granted ++ s.writer.deferred.elim [] Group.members ++
    allRegions.flatMap fun r => (s.writer.held.get r).elim [] fun h => h.group.members

/-- The untaken first writes of a region, in acceptance order (R68). -/
def State.untaken (s : State) (r : RegionId) : List Entry :=
  s.table.filter fun e => e.state == .waitLog && e.cls == some (.region r) && !decide (e.tag ∈ s.groupTags)

/-- The lines of a group being taken: directory entries go to the earliest lines in group order while any is free
(R61). -/
def groupLines : Nat → List Entry → List GroupLine
  | _, [] => []
  | 0, e :: rest => { addr := lineOf e.addr, inDirectory := false, reads := 0, old := none } :: groupLines 0 rest
  | free + 1, e :: rest => { addr := lineOf e.addr, inDirectory := true, reads := 0, old := none } :: groupLines free rest

/-- The lines a group inserted directory entries for. -/
def Group.tracked (g : Group) : List Nat := (g.lines.filter GroupLine.inDirectory).map GroupLine.addr

/-- The group a region's untaken first writes form, up to eight of them (R68). -/
def State.newGroup (s : State) (r : RegionId) : Group :=
  let es := (s.untaken r).take Config.groupSize
  { region := r, number := (s.region r).number, members := es.map Entry.tag,
    lines := groupLines (Config.directorySize - s.directory.length) es }

/-- The group's directory entries are inserted, PENDING, and SATURATED becomes yes when a line is left over (R61). -/
def State.insertGroup (s : State) (g : Group) : State :=
  let s := { s with directory := s.directory ++ g.tracked.map fun a => { region := g.region, line := a, durable := false } }
  if g.lines.all GroupLine.inDirectory then s else s.updRegion g.region fun x => { x with saturated := true }

/-! ## The builder's record (R70 to R72) -/

/-- The contents of the data blocks read so far, in group order; an unread line counts as zeros until it is read. -/
def Group.oldContents (g : Group) : List Line := g.lines.map fun l => l.old.getD 0

/-- The old contents of a build's group, none for a closing record. -/
def Build.data (b : Build) : List Line := b.group.elim [] Group.oldContents

/-- The blocks of a build's record with their addresses: the two header blocks and the data blocks (R34, R72). -/
def Build.blocks (b : Build) (s : State) : List (Nat × Line) :=
  let contents := b.record.headerBlocks b.data ++ b.data
  contents.mapIdx fun i c => (s.blockAddr (b.place.index + i), c)

/-- The record's first attempt begins: its block writes are handed in ring order (R72). -/
def State.startRecord (s : State) (b : Build) : State :=
  let u := VerifiedUnit.fresh (b.blocks s)
  (s.updWriter fun w => { w with builder := some { b with stage := .writing u } }).handLog (u.writes .logWriter)

/-- The unit written first: the WRAP marker when placement calls for one, and otherwise the record (R72). -/
def State.startWriting (s : State) (b : Build) : State :=
  match b.place.marker with
  | some (i, seq) =>
    let u := VerifiedUnit.fresh [(s.blockAddr i, wrapBlock seq b.record.generation)]
    (s.updWriter fun w => { w with builder := some { b with stage := .marker u } }).handLog (u.writes .logWriter)
  | none => s.startRecord b

/-- A granted group becomes the builder's record, and the old-line reads are handed in group order (R69, R71). -/
def State.startBuild (s : State) (b : Build) : State :=
  let b := { b with
    stage := .reading
    group := b.group.map fun g => { g with lines := g.lines.map fun l => { l with reads := 1, old := none } } }
  (s.updWriter fun w => { w with builder := some b, granted := none }).handLog
    ((b.group.elim [] Group.lines).map fun l => readBlock .logWriter l.addr)

/-- A grant of a group (R48, R70): the record is placed, the region's context is updated and the header fixed; the
builder takes it at once, or the grant is held while the builder is BUSY (R69). -/
def State.grant (s : State) (g : Group) : State :=
  let x := s.region g.region
  let first := x.records = 0
  let p := s.log.placement (2 + g.lines.length)
  let firstIndex := if first then p.1.index else x.firstIndex.getD p.1.index
  let record : LogRecord :=
    { kind := .undo, region := g.region, first := decide first, recovery := false, sequence := p.2, number := g.number,
      previous := if first then none else x.lastIndex, lines := g.lines.map GroupLine.addr,
      generation := s.log.generation, firstIndex := firstIndex }
  let b : Build := { record := record, place := p.1, group := some g, stage := .reading }
  let s := s.admitRecord g.region (decide first) g.lines.length
  let s := s.updRegion g.region fun x =>
    { x with records := x.records + 1, firstIndex := if first then some p.1.index else x.firstIndex,
             lastIndex := some p.1.index }
  let s := s.updWriter fun w => { w with deferred := none, held := w.held.set g.region.val none }
  let s := s.updLog fun l => { l with deferred := none }
  let s := s.moveEntries g.members .waitLog
  if s.writer.builder.isNone then s.startBuild b else s.updWriter fun w => { w with granted := some b }

/-! ## Refusals (R75 to R78) -/

/-- A group is discarded from where it waits. -/
def State.discardGroup (s : State) (g : Group) : State :=
  (s.updWriter fun w => { w with deferred := none, held := w.held.set g.region.val none }).updLog
    fun l => { l with deferred := none }

/-- WAIT (R76): the group becomes HELD, not retry-due, and its members WAIT_SPACE. -/
def State.refuseWait (s : State) (g : Group) : State :=
  ((s.discardGroup g).updWriter fun w =>
    { w with held := w.held.set g.region.val (some { group := g, retryDue := false }) }).moveEntries g.members .waitSpace

/-- FAIL (R77): every member is answered NO_SPACE, the group's PENDING entries are removed and it is discarded. -/
def State.refuseFail (s : State) (g : Group) : State :=
  ((s.answerErrors (s.entriesOf g.members) fun _ => .noSpace).dropPending g.region g.tracked).discardGroup g

/-- ABORT (R78): every member is answered ABORTED, the group is discarded and the transaction aborted. -/
def State.refuseAbort (s : State) (g : Group) : State :=
  ((s.answerErrors (s.entriesOf g.members) fun _ => .aborted).discardGroup g).abortTxn g.region

/-- The transaction's own first record is at the volatile tail (R50). -/
def State.ownFirstAtTail (s : State) (r : RegionId) : Bool :=
  decide ((s.region r).records ≠ 0) && (s.region r).firstIndex == some s.log.volatileTail

/-- The handling of a refused group (R75). -/
def State.refuse (s : State) (g : Group) : State :=
  if (s.region g.region).txn = .opened then
    match (s.region g.region).live.space with
    | .wait => if s.ownFirstAtTail g.region then s.refuseFail g else s.refuseWait g
    | .fail => s.refuseFail g
    | .abort => s.refuseAbort g
  else s.refuseFail g

/-! ## Asking admission (R49, R69) -/

/-- The group becomes DEFERRED with its admission (R49, R69). -/
def State.defer (s : State) (g : Group) : State :=
  ((s.updWriter fun w => { w with deferred := some g, held := w.held.set g.region.val none }).updLog
    fun l => { l with deferred := some { region := g.region, lines := g.lines.length } }).moveEntries g.members .waitLog

/-- The Log Manager's answer to a request for admission (R47 to R49): granted, deferred behind an anchor write that is
in progress or started now, or refused. -/
def State.askAdmission (s : State) (g : Group) : State :=
  if s.log.admits (decide ((s.region g.region).records = 0)) g.lines.length then s.grant g
  else if s.log.anchor.isSome then s.defer g
  else if s.log.volatileTail ≠ s.log.durableTail then (s.startAnchor .reclaim).defer g
  else s.refuse g

/-- The deferred admission is tested again when an anchor write is verified (R49, R79). -/
def State.reevaluate (s : State) : State :=
  match s.writer.deferred with
  | some g => s.askAdmission g
  | none => s

/-! ## Choosing work (R66, R67) -/

/-- A region is eligible for UNDO work (R67). -/
def State.eligible (s : State) (r : RegionId) : Bool :=
  s.device == .run && ((s.region r).txn == .opened || (s.region r).txn == .committing) &&
    (match s.writer.held.get r with
     | some h => h.retryDue
     | none =>
       !s.hasBusyGroup r && !(s.writer.deferred.any fun g => g.region == r) && !(s.untaken r).isEmpty)

/-- The regions in the order they are examined: ascending from the one after the last region served, wrapping from 7
to 0 (R66). -/
def State.serveOrder (s : State) : List RegionId := allRegions.map fun i => s.writer.lastServed + 1 + i

/-- An eligible region is served: its retry-due HELD group is retried, or a new group is taken (R67, R68, R76). -/
def State.serve (s : State) (r : RegionId) : State :=
  let s := s.updWriter fun w => { w with lastServed := r }
  match s.writer.held.get r with
  | some h =>
    (s.updWriter fun w => { w with held := w.held.set r.val (some { h with retryDue := false }) }).askAdmission h.group
  | none => let g := s.newGroup r; (s.insertGroup g).askAdmission g

/-- The builder takes a closing request: the record is placed without a test and its writing begins (R41, R74). -/
def State.takeClosing (s : State) (c : ClosingRequest) : State :=
  let p := s.log.placement 2
  let record : LogRecord :=
    { kind := c.kind, region := c.region, first := false, recovery := c.recovery, sequence := p.2, number := c.number,
      previous := none, lines := [], generation := s.log.generation, firstIndex := c.firstIndex }
  let s := s.updWriter fun w => { w with closing := w.closing.tail }
  (s.placeAtHead 2).startWriting { record := record, place := p.1, group := none, stage := .reading }

/-- The idle builder's next work: a held grant before anything else (R69), then the head closing request, then UNDO
work of the first eligible region while no group is DEFERRED (R66). -/
def State.chooseWork (s : State) : State :=
  match s.writer.granted with
  | some b => s.startBuild b
  | none =>
    match s.writer.closing with
    | c :: _ => s.takeClosing c
    | [] =>
      if s.writer.deferred.isSome then s
      else
        match s.serveOrder.find? s.eligible with
        | some r => s.serve r
        | none => s

/-! ## Outcomes of the builder's requests -/

/-- A record is durable: an UNDO record releases its group (R73), a COMMIT record completes its commit (R21) and an
ABORT record its walk (R94). -/
def State.recordDurable (s : State) (b : Build) : State :=
  let s := s.updWriter fun w => { w with builder := none }
  match b.group with
  | some g =>
    g.members.foldl State.releaseWrite (s.makeDurable g.region g.tracked)
  | none =>
    match b.record.kind with
    | .commit => s.completeCommit b.record.region
    | .abort => s.completeWalk b.record.region
    | .undo => s

/-- The builder's record is exhausted: LOG_WRITE is pushed and the log side fails (R72, R74, R105, R107). -/
def State.builderExhausted (s : State) (b : Build) (addr : Option Nat) (seq : Word32) (attempts : Nat) : State :=
  (s.pushFault (faultEntry .logWrite (some b.record.region) addr (some seq) attempts)).logSideFailure

/-- An outcome of the unit being written, the WRAP marker's or the record's (R72, R102, R103). -/
def State.unitOutcome (s : State) (b : Build) (u : VerifiedUnit) (stage : VerifiedUnit → BuildStage) (seq : Word32)
    (done : State → State) (addr : Nat) (outcome : Option Line) : State :=
  let put (u : VerifiedUnit) := s.updWriter fun w => { w with builder := some { b with stage := stage u } }
  match u.take s.params.retryLimit addr outcome with
  | .waiting u => put u
  | .readBack u => (put u).handLog (u.readBacks .logWriter)
  | .rewrite u => (put u).handLog (u.writes .logWriter)
  | .exhausted n => s.builderExhausted b none seq n
  | .durable => done s

/-- The lines of a group after a line at `addr` is read again or filled. -/
def Group.updLine (g : Group) (addr : Nat) (f : GroupLine → GroupLine) : Group :=
  { g with lines := g.lines.map fun l => if l.addr = addr then f l else l }

/-- An outcome of an old-line read (R71, R104): the line's data block is filled and the record is written once every
one is, or the line is read again, or its reads are exhausted. -/
def State.oldLineOutcome (s : State) (b : Build) (g : Group) (addr : Nat) (outcome : Option Line) : State :=
  match g.lines.find? fun l => l.addr == addr with
  | none => s
  | some l =>
    match outcome with
    | some d =>
      let g := g.updLine addr fun l => { l with old := some d }
      let b := { b with group := some g }
      if g.lines.all fun l => l.old.isSome then s.startWriting b
      else s.updWriter fun w => { w with builder := some b }
    | none =>
      if l.reads - 1 < s.params.retryLimit then
        let g := g.updLine addr fun l => { l with reads := l.reads + 1 }
        (s.updWriter fun w => { w with builder := some { b with group := some g } }).handLog [readBlock .logWriter addr]
      else s.builderExhausted b (some addr) b.record.sequence l.reads

/-- The sequence of a build's WRAP marker, or the record's own. -/
def Build.markerSeq (b : Build) : Word32 := (b.place.marker.map Prod.snd).getD b.record.sequence

/-- The outcome of a request of the Log Writer reaches the builder, outside quiesce. -/
def State.writerOutcome (s : State) (addr : Nat) (outcome : Option Line) : State :=
  match s.writer.builder with
  | none => s
  | some b =>
    match b.stage with
    | .reading =>
      match b.group with
      | some g => s.oldLineOutcome b g addr outcome
      | none => s
    | .marker u => s.unitOutcome b u .marker b.markerSeq (fun s => s.startRecord b) addr outcome
    | .writing u => s.unitOutcome b u .writing b.record.sequence (fun s => s.recordDurable b) addr outcome
    | .finishing => s

end Sys2Proof.Machine
end

