-- ==== Sys2Proof/Machine/Anchors.lean ====
section
/-! DEFINITION. Anchor writes (R52, R53, R57, R134, R145, R146): their outcomes, and what a verified or exhausted anchor
brings about. -/

namespace Sys2Proof.Machine

/-- The phase becomes HALTED, the device enters HALTED and SAFE is asserted (R147). -/
def State.halt (s : State) : State :=
  (s.setDevice .halted).updPowerFail fun p => { p with phase := .halted, safe := true }

/-- The written slot becomes current and the durable tail the snapshot; the anchor write becomes IDLE (R52). -/
def State.adoptAnchor (s : State) (a : AnchorWrite) : State :=
  s.updLog fun l =>
    { l with slot := some a.slot, anchorSeq := a.sequence, durableTail := a.tail, anchor := none }

/-- The stride condition is tested again when an anchor was wanted (R52); a recovery anchor that was waiting starts in
its place (R134). -/
def State.afterAnchor (s : State) : State :=
  if s.log.recoveryWanted ∧ s.device = .restoring then
    (s.updLog fun l => { l with recoveryWanted := false, anchorWanted := false }).startAnchor .recovery
  else if s.log.anchorWanted then (s.updLog fun l => { l with anchorWanted := false }).strideTrigger
  else s

/-- What the verified anchor was for: the end of recovery enters RUN (R134, R135), FORMAT goes on to its second slot
and then to RUN (R57), and the closing anchor halts (R146). In QUIESCING only the closing anchor has a sequel (R145). -/
def State.anchorSequel (s : State) : AnchorPurpose → State
  | .reclaim => s
  | .recovery => if s.device = .restoring then (s.setDevice .run).endStartup else s
  | .formatFirst => if s.device = .formatting then s.startAnchor .formatSecond else s
  | .formatSecond => if s.device = .formatting then s.setDevice .run else s
  | .closing => if s.device = .quiescing then s.halt else s

/-- An anchor write is verified (R52): the slot is adopted, free space tested, a space event sent, the deferred
admission tested again and a wanted anchor considered. -/
def State.anchorVerified (s : State) (a : AnchorWrite) : State :=
  let old := s.log.free
  ((((s.adoptAnchor a).noteFree old).spaceEvent.reevaluate).afterAnchor).anchorSequel a.purpose

/-- An anchor write is exhausted (R52): ANCHOR_WRITE is pushed, the tail and current slot stay, and the log side fails
(R107); an exhausted closing anchor halts (R146). -/
def State.anchorExhausted (s : State) (a : AnchorWrite) (attempts : Nat) : State :=
  let s := (s.updLog fun l => { l with anchor := none }).pushFault
    (faultEntry .anchorWrite none (some (s.slotAddr a.slot)) none attempts)
  if s.device = .quiescing then (if a.purpose = .closing then s.halt else s) else s.logSideFailure

/-- The outcome of a request of the Log Manager reaches the anchor write in progress (R52, R102, R103). -/
def State.anchorOutcome (s : State) (addr : Nat) (outcome : Option Line) : State :=
  match s.log.anchor with
  | none => s
  | some a =>
    let put (u : VerifiedUnit) := s.updLog fun l => { l with anchor := some { a with unit := u } }
    match a.unit.take s.params.retryLimit addr outcome with
    | .waiting u => put u
    | .readBack u => (put u).handAnchor (u.readBacks .logManager)
    | .rewrite u => (put u).handAnchor (u.writes .logManager)
    | .exhausted n => s.anchorExhausted a n
    | .durable => s.anchorVerified a

end Sys2Proof.Machine
end

