-- ==== Sys2Proof/Machine/Rollback.lean ====
section
/-! DEFINITION. The Rollback Engine (04_rollback.md): starting a walk and its drain, reading and checking a record,
restoring its lines, moving along the chain and closing the walk. -/

namespace Sys2Proof.Machine

/-! ## Draining (R86) -/

/-- The drain set of a walk of region `r` (R86). -/
def State.walkDrainSet (s : State) (r : RegionId) : List HostTag :=
  if (s.region r).live.enable then
    (s.table.filter fun e =>
      ((e.state == .ready || e.state == .issued) && (s.region r).live.holds e.addr)
        || decide (e.tag ∈ s.busyMembers r)).map Entry.tag
  else []

/-- No QUARANTINED tag holds an address in the live window of an enabled walk region (R86). -/
def State.windowClear (s : State) (r : RegionId) : Bool :=
  !(s.region r).live.enable || !s.anyTag (Tag.quarantinedAt (s.region r).live.holds)

/-- The sub-state of a region becomes `x`. -/
def State.setSub (s : State) (r : RegionId) (x : SubState) : State := s.updRegion r fun c => { c with sub := x }

/-! ## Reading a record (R88) -/

/-- The byte address of the `k`th log block of the record at ring index `x`. -/
def State.recordBlock (s : State) (x k : Nat) : Nat := s.blockAddr ((x + k) % s.log.ring)

/-- The engine reads the record at the current record index: the two header reads are handed together (R88), in ring order
(DESIGN CHOICE, notes/assumptions/33.md). -/
def State.readRecord (s : State) : State :=
  match s.engine.index with
  | none => s
  | some x =>
    (s.updEngine fun e =>
      { e with header := none, buffer := [], lineIndex := none, restore := none,
               blocks := [{ reads := 1, contents := none }, { reads := 1, contents := none }] }).handRoll
      [readBlock .rollback (s.recordBlock x 0), readBlock .rollback (s.recordBlock x 1)]

/-- The drain is over: the sub-state becomes WALKING and the record at the current record index is read (R86). -/
def State.startWalking (s : State) (r : RegionId) : State := (s.setSub r .walking).readRecord

/-- The walk may pass from DRAINING to WALKING (R86). -/
def State.drainOver (s : State) (r : RegionId) : Bool := s.engine.drain.isEmpty && s.windowClear r

/-- The walk of the region at the head of the queue starts (R85), and passes to WALKING at once when its drain is
already over (R86). A walk started in RESTORING is a recovery walk (R131). -/
def State.startWalk (s : State) (r : RegionId) : State :=
  let drain := s.walkDrainSet r
  let s := (s.updEngine fun e =>
    { e with queue := e.queue.tail, walk := some r, recovery := s.device == .restoring, drain := drain,
             index := (s.region r).lastIndex, header := none, blocks := [], buffer := [], lineIndex := none,
             walked := 0, restore := none }).setSub r .draining
  if s.drainOver r then s.startWalking r else s

/-! ## Checking a record (R89, Table 4-2) -/

/-- The chain position test of Table 4-2. -/
def State.chainPosition (s : State) (r : RegionId) (x : Nat) (h : Header) : Bool :=
  (s.region r).firstIndex == some h.firstIndex &&
    (if some x = (s.region r).firstIndex then h.first && h.previous == none32
     else !h.first && decide (h.previous < s.log.ring))

/-- The line addresses test of Table 4-2. -/
def State.linesGood (s : State) (h : Header) : Bool :=
  h.lines.all (fun a => a % 32 == 0 && decide (a < s.memorySize - 64) && !s.inLogArea a) && decide h.lines.Nodup

/-- Every test of Table 4-2 but the data CRC, for the header read at ring index `x`. -/
def State.headerPasses (s : State) (r : RegionId) (x : Nat) (h : Header) : Bool :=
  h.crcGood
    && h.kind == RecordKind.undo.code && h.region == r.val && h.number == (s.region r).number
    && h.generation == s.log.generation
    && decide (1 ≤ h.count) && decide (h.count ≤ 8) && decide (x + 2 + h.count ≤ s.log.ring)
    && s.linesGood h
    && s.chainPosition r x h
    && decide (s.engine.walked < (s.region r).records)

/-- The sequence a ROLLBACK_READ entry carries: the header's when its CRC test passed (R95). -/
def Header.faultSequence (h : Header) : Option Word32 := if h.crcGood then some h.sequence else none

/-- A record at ring index `x` fails its check (R89, R95). -/
def State.failCheck (s : State) (r : RegionId) (x : Nat) (h : Header) : State :=
  s.failWalk r (faultEntry .rollbackRead (some r) (some (s.recordBlock x 0)) h.faultSequence 1)

/-! ## Restoring lines (R90) -/

/-- The restore of line `i` begins with one full-line write (R90). -/
def State.startRestore (s : State) (h : Header) (i : Nat) : State :=
  let u := VerifiedUnit.fresh [(h.lines.getD i 0, s.engine.buffer.getD i 0)]
  (s.updEngine fun e => { e with lineIndex := some i, restore := some u }).handRoll (u.writes .rollback)

/-- The walk enters CLOSING and hands the Log Writer its ABORT request (R91, R93). -/
def State.closeWalk (s : State) (r : RegionId) : State :=
  let c : ClosingRequest :=
    { region := r, number := (s.region r).number, kind := .abort, firstIndex := (s.region r).firstIndex.getD 0,
      recovery := s.engine.recovery }
  ((s.setSub r .closing).updEngine fun e => { e with lineIndex := none, restore := none }).updWriter
    fun w => { w with closing := w.closing ++ [c] }

/-- Line 0 has compared equal: the record is walked, and the engine moves to the earlier record or closes (R91). -/
def State.recordRestored (s : State) (r : RegionId) (h : Header) : State :=
  let s := s.updEngine fun e => { e with walked := e.walked + 1 }
  if h.first then s.closeWalk r else (s.updEngine fun e => { e with index := some h.previous }).readRecord

/-- Line `i` has compared equal (R90). -/
def State.lineRestored (s : State) (r : RegionId) (h : Header) : Nat → State
  | 0 => s.recordRestored r h
  | i + 1 => s.startRestore h i

/-- An outcome of the restore in progress (R90, R96, R102, R103). -/
def State.restoreOutcome (s : State) (r : RegionId) (h : Header) (u : VerifiedUnit) (i addr : Nat)
    (outcome : Option Line) : State :=
  let put (u : VerifiedUnit) := s.updEngine fun e => { e with restore := some u }
  match u.take s.params.retryLimit addr outcome with
  | .waiting u => put u
  | .readBack u => (put u).handRoll (u.readBacks .rollback)
  | .rewrite u => (put u).handRoll (u.writes .rollback)
  | .exhausted n =>
    s.failWalk r (faultEntry .rollbackWrite (some r) (some (h.lines.getD i 0)) (some h.sequence) n)
  | .durable => s.lineRestored r h i

/-! ## Outcomes of log-block reads (R88) -/

/-- Both header blocks are in: the header is checked, and its data blocks are read together (R88, R89), in ring order
(DESIGN CHOICE, notes/assumptions/33.md). -/
def State.headerIn (s : State) (r : RegionId) (x : Nat) (a b : Line) : State :=
  let h := readHeader a b
  if s.headerPasses r x h then
    (s.updEngine fun e =>
      { e with header := some h, blocks := e.blocks ++ List.replicate h.count { reads := 1, contents := none } }).handRoll
      ((List.range h.count).map fun i => readBlock .rollback (s.recordBlock x (2 + i)))
  else s.failCheck r x h

/-- Every data block is in: the data CRC is tested, and the restore of the last line begins (R89, R90). -/
def State.dataIn (s : State) (r : RegionId) (x : Nat) (h : Header) (data : List Line) : State :=
  if dataCrc data = h.dataCrc then (s.updEngine fun e => { e with buffer := data }).startRestore h (h.count - 1)
  else s.failCheck r x h

/-- What follows once a log block of the record has been read. -/
def State.blockIn (s : State) (r : RegionId) (x : Nat) : State :=
  match s.engine.header, s.engine.blocks.filterMap BlockRead.contents with
  | none, [a, b] => s.headerIn r x a b
  | some h, _ :: _ :: data => if data.length = h.count then s.dataIn r x h data else s
  | _, _ => s

/-- The block of the record that a log-block read of `addr` was of. -/
def State.blockOf (s : State) (x addr : Nat) : Option Nat :=
  (List.range s.engine.blocks.length).find? fun k => s.recordBlock x k == addr

/-- The outcome of a log-block read (R88): the block is filled, or read again, or its reads are exhausted. -/
def State.logBlockOutcome (s : State) (r : RegionId) (x addr : Nat) (outcome : Option Line) : State :=
  match s.blockOf x addr with
  | none => s
  | some k =>
    let reads := (s.engine.blocks.map BlockRead.reads).getD k 0
    match outcome with
    | some d =>
      (s.updEngine fun e => { e with blocks := e.blocks.set k { reads := reads, contents := some d } }).blockIn r x
    | none =>
      if reads - 1 < s.params.retryLimit then
        (s.updEngine fun e =>
          { e with blocks := e.blocks.set k { reads := reads + 1, contents := none } }).handRoll [readBlock .rollback addr]
      else
        s.failWalk r
          (faultEntry .rollbackRead (some r) (some addr) (s.engine.header.bind Header.faultSequence) reads)

/-- The outcome of a request of the Rollback Engine reaches the walk, outside quiesce. -/
def State.rollbackOutcome (s : State) (addr : Nat) (outcome : Option Line) : State :=
  match s.engine.walk, s.engine.index with
  | some r, some x =>
    match s.engine.restore, s.engine.header, s.engine.lineIndex with
    | some u, some h, some i => s.restoreOutcome r h u i addr outcome
    | _, _, _ => s.logBlockOutcome r x addr outcome
  | _, _ => s

end Sys2Proof.Machine
end

