-- ==== Sys2Proof/Machine/Recovery.lean ====
section
/-! DEFINITION. The Start-up Controller (06_start_up_and_recovery.md): anchor selection, the forward scan, what the scan
loads, and the queuing of recovery walks. -/

namespace Sys2Proof.Machine

/-! ## Anchor selection (R119 to R121) -/

/-- A slot's contents when it was read and is valid (R51). -/
def State.validSlot (s : State) (slot : Fin 2) : Option AnchorContents :=
  match (s.startup.slots.get slot).outcome with
  | .read b => if anchorValid s.memorySize b then some (readAnchor b) else none
  | _ => none

/-- The current anchor (R51, R121): the valid one, the one ahead, or slot 1 when both carry the same sequence. Slot 1 is also
taken when the sequences differ by exactly 2^31, where R51 puts neither ahead (DESIGN CHOICE,
notes/assumptions/31.md). -/
def State.selectAnchor (s : State) : Option (Fin 2 × AnchorContents) :=
  match s.validSlot 0, s.validSlot 1 with
  | none, none => none
  | some a, none => some (0, a)
  | none, some b => some (1, b)
  | some a, some b => if sequenceAhead a.sequence b.sequence then some (0, a) else some (1, b)

/-- The Log Manager takes the geometry, generation, current slot, anchor sequence and durable tail of an anchor (R121). -/
def State.loadAnchor (s : State) (slot : Fin 2) (a : AnchorContents) : State :=
  s.updLog fun l =>
    { l with geometry := some { base := a.base, size := a.size }, generation := a.generation, slot := some slot,
             anchorSeq := a.sequence, durableTail := a.tail }

/-- The other positions when a slot could not be read: the head and volatile tail at the durable tail, the sequences at
the anchor's expected sequence (R120). -/
def State.loadAtTail (s : State) (a : AnchorContents) : State :=
  (s.updLog fun l =>
    { l with head := a.tail, volatileTail := a.tail, nextSeq := a.tailSeq, tailSeq := a.tailSeq,
             unresolved := 0 }).setLevel

/-- The RECOVERY_READ push of an exhausted slot (R120). -/
def State.pushSlotFault (s : State) (slot : Fin 2) : State :=
  match (s.startup.slots.get slot).outcome with
  | .exhausted =>
    s.pushFault (faultEntry .recoveryRead none (some (s.slotAddr slot)) none (s.startup.slots.get slot).reads)
  | _ => s

/-- A slot's reads are exhausted. -/
def State.slotExhausted (s : State) (slot : Fin 2) : Bool := (s.startup.slots.get slot).outcome == .exhausted

/-- A slot has an outcome (R119). -/
def State.slotKnown (s : State) (slot : Fin 2) : Bool := (s.startup.slots.get slot).outcome != .reading

/-- Start-up ends in LOG_FAULT because a slot could not be read (R120, R135). -/
def State.startupLogFault (s : State) : State :=
  let chosen := s.selectAnchor
  let s := (s.pushSlotFault 0).pushSlotFault 1
  let s := match chosen with
    | some (slot, a) => (s.loadAnchor slot a).loadAtTail a
    | none => s
  (s.setDevice .logFault).endStartup

/-! ## The scan: reads and validity (R123, R124) -/

/-- The next position of the scan is read (R123), and `none` when it is the head without a read (k = N − 1). -/
def State.scanReads (s : State) : Option State :=
  if s.startup.distance + 1 = s.log.ring then none
  else
    some ((s.updStartup fun u => { u with blocks := [{ reads := 1, contents := none }] }).handRoll
      [readBlock .startup (s.blockAddr s.startup.position)])

/-- A WRAP marker at position `p`, distance `k` (Table 6-4). -/
def State.wrapValid (s : State) (p k : Nat) (b : Line) : Bool :=
  let v := b.toNat
  crc32 28 (fieldAt v 0 28) == BitVec.ofNat 32 (fieldAt v 28 4)
    && BitVec.ofNat 32 (fieldAt v 4 4) == s.startup.expected && BitVec.ofNat 32 (fieldAt v 8 4) == s.log.generation
    && decide (1 ≤ s.log.ring - p) && decide (s.log.ring - p ≤ 9)
    && decide (k + (s.log.ring - p) ≤ s.log.ring - 1)

/-- The links test of Table 6-4. -/
def State.linksValid (s : State) (p : Nat) (h : Header) : Bool :=
  if h.kind = RecordKind.undo.code then
    if h.first then h.firstIndex == p && h.previous == none32
    else decide (h.firstIndex < s.log.ring) && decide (h.previous < s.log.ring)
  else h.previous == none32 && decide (h.firstIndex < s.log.ring) && h.dataCrc == 0

/-- Every test of Table 6-4 on a record header but the data CRC and the agreement. -/
def State.scanHeaderValid (s : State) (p k : Nat) (h : Header) : Bool :=
  let undo := h.kind == RecordKind.undo.code
  h.crcGood
    && h.sequence == s.startup.expected && h.generation == s.log.generation
    && decide (h.region < 8)
    && (if undo then decide (1 ≤ h.count) && decide (h.count ≤ 8) else h.count == 0)
    && decide (p + 2 + h.count ≤ s.log.ring) && decide (k + 2 + h.count ≤ s.log.ring - 1)
    && (!h.first || undo) && (!h.recovery || h.kind == RecordKind.abort.code)
    && s.linksValid p h

/-- The tracker after a record at position `p` that agrees with it, and none when it disagrees (R126, Table 6-5). -/
def Tracker.meet (t : Tracker) (p : Nat) (h : Header) : Option Tracker :=
  if h.kind = RecordKind.undo.code then
    match t.candidate with
    | none =>
      if h.first then
        some { seen := some h.number
               candidate := some { number := h.number, firstIndex := p, firstSeq := h.sequence, lastIndex := p,
                                   records := 1 } }
      else some { t with seen := some h.number }
    | some c =>
      if !h.first && h.number == c.number && h.previous == c.lastIndex && h.firstIndex == c.firstIndex then
        some { t with candidate := some { c with lastIndex := p, records := c.records + 1 } }
      else none
  else
    match t.candidate with
    | none => some { t with seen := some h.number }
    | some c =>
      if h.number == c.number && h.firstIndex == c.firstIndex then
        some { seen := some h.number, candidate := none }
      else none

/-! ## What the scan loads (R127, R129, R130) -/

/-- The candidate of a region, once the scan has ended. -/
def State.candidate (s : State) (r : RegionId) : Option Candidate := (s.startup.trackers.get r).candidate

/-- The candidates' first records, in ascending region number (R127). -/
def State.candidateFirsts (s : State) : List (Nat × Word32) :=
  allRegions.filterMap fun r => (s.candidate r).map fun c => (c.firstIndex, c.firstSeq)

/-- The Log Manager is loaded from the scan (R127). -/
def State.loadScan (s : State) : State :=
  let firsts := s.candidateFirsts
  let tail := match firsts with
    | [] => (s.startup.position, s.startup.expected)
    | x :: rest => rest.foldl (earlier s.log.ring s.log.durableTail) x
  let s := allRegions.foldl (fun s r => s.updLog fun l =>
    { l with firstSeqs := l.firstSeqs.set r.val ((s.candidate r).map Candidate.firstSeq) }) s
  (s.updLog fun l =>
    { l with head := s.startup.position, nextSeq := s.startup.expected, unresolved := firsts.length,
             volatileTail := tail.1, tailSeq := tail.2 }).setLevel

/-- The transaction fields of a region's context are set from its tracker (R129): the candidate's with the given
transaction state and sub-state (R128, R130), and otherwise the values after reset with the number that follows the
last one seen. -/
def State.setFromTracker (s : State) (txn : TxnState) (sub : SubState) (r : RegionId) : State :=
  let t := s.startup.trackers.get r
  s.updRegion r fun x =>
    match t.candidate with
    | some c =>
      { x with number := c.number, records := c.records, firstIndex := some c.firstIndex, lastIndex := some c.lastIndex,
               saturated := false, age := 0, txn := txn, sub := sub }
    | none =>
      { x with number := (match t.seen with
                          | some n => nextNumber n
                          | none => 1),
               txn := .idle, records := 0, firstIndex := none, lastIndex := none, saturated := false, age := 0,
               sub := .none, drain := [], recordPhase := false, expiryDue := false }

/-- The regions with a candidate, ascending (R130). -/
def State.candidateRegions (s : State) : List RegionId := allRegions.filter fun r => (s.candidate r).isSome

/-- The scan ends at its position, which is the head (R127, R129, R130): the device enters RESTORING with every region
that has a candidate queued for a recovery walk. -/
def State.scanEnd (s : State) : State :=
  let s := s.loadScan
  let s := allRegions.foldl (State.setFromTracker · .rollingBack .queued ·) s
  (s.updEngine fun e => { e with queue := e.queue ++ s.candidateRegions }).setDevice .restoring

/-- The reads of a block at the scan position are exhausted (R128): the scan ends there, the regions with a candidate
become FAULTED, and start-up ends in LOG_FAULT. The outcomes of the position's other reads are discarded (DEDUCED,
notes/assumptions/35.md). -/
def State.scanExhausted (s : State) (addr attempts : Nat) : State :=
  let s := s.pushFault (faultEntry .recoveryRead none (some addr) (some s.startup.expected) attempts)
  let s := s.loadScan
  let s := allRegions.foldl (State.setFromTracker · .faulted .none ·) s
  ((s.stopOwner .startup).setDevice .logFault).endStartup

/-! ## The scan: moving on (R125) -/

/-- The scan proceeds at its position (R123), or ends there. -/
def State.scanHere (s : State) : State :=
  match s.scanReads with
  | some t => t
  | none => s.scanEnd

/-- The scan moves on past a record or marker: the expected sequence advances, the distance rises by `size` and the
position becomes `position` (R125). -/
def State.scanOn (s : State) (size position : Nat) : State :=
  (s.updStartup fun u =>
    { u with expected := u.expected + 1, distance := u.distance + size, position := position, blocks := [] }).scanHere

/-- The position after a record of `size` blocks at `p` (R125). -/
def State.scanNext (s : State) (p size : Nat) : Nat := if p + size = s.log.ring then 0 else p + size

/-- A record that has passed every other test meets its region's tracker (R126), and the scan moves on or ends. -/
def State.scanRecord (s : State) (p : Nat) (h : Header) : State :=
  if hr : h.region < 8 then
    let r : RegionId := ⟨h.region, hr⟩
    match (s.startup.trackers.get r).meet p h with
    | some t =>
      (s.updStartup fun u => { u with trackers := u.trackers.set r.val t }).scanOn (2 + h.count)
        (s.scanNext p (2 + h.count))
    | none => s.scanEnd
  else s.scanEnd

/-- `n` further reads at the scan position are handed (R123), in ring order (DESIGN CHOICE, notes/assumptions/33.md). -/
def State.scanRead (s : State) (p from_ n : Nat) : State :=
  (s.updStartup fun u =>
    { u with blocks := u.blocks ++ List.replicate n { reads := 1, contents := none } }).handRoll
    ((List.range n).map fun i => readBlock .startup (s.blockAddr (p + from_ + i)))

/-- The first block at the scan position is in (R123): a WRAP marker is judged alone, a record's second header block is
read, and any other kind code ends the scan. -/
def State.scanFirst (s : State) (b : Line) : State :=
  let p := s.startup.position
  if blockKind b = 4 then
    if s.wrapValid p s.startup.distance b then s.scanOn (s.log.ring - p) 0 else s.scanEnd
  else if blockKind b = 1 ∨ blockKind b = 2 ∨ blockKind b = 3 then
    if p + 1 = s.log.ring then s.scanEnd else s.scanRead p 1 1
  else s.scanEnd

/-- The two header blocks at the scan position are in (R123, R124): an UNDO header that passes its tests has its data
blocks read, and a closing record is judged. -/
def State.scanHeader (s : State) (a b : Line) : State :=
  let p := s.startup.position
  let h := readHeader a b
  if s.scanHeaderValid p s.startup.distance h then
    if h.count = 0 then s.scanRecord p h else s.scanRead p 2 h.count
  else s.scanEnd

/-- The data blocks at the scan position are in: the record is judged against its data CRC (R123, R124). -/
def State.scanData (s : State) (a b : Line) (data : List Line) : State :=
  let h := readHeader a b
  if dataCrc data = h.dataCrc then s.scanRecord s.startup.position h else s.scanEnd

/-- What follows once every block asked for at the scan position is in. -/
def State.scanBlocksIn (s : State) : State :=
  if s.startup.blocks.all fun b => b.contents.isSome then
    match s.startup.blocks.filterMap BlockRead.contents with
    | [a] => s.scanFirst a
    | [a, b] => s.scanHeader a b
    | a :: b :: data => s.scanData a b data
    | [] => s
  else s

/-- The outcome of a scan read (R123, R128): the block is filled, or read again, or its reads are exhausted. -/
def State.scanOutcome (s : State) (addr : Nat) (outcome : Option Line) : State :=
  match (List.range s.startup.blocks.length).find? fun k => s.blockAddr (s.startup.position + k) == addr with
  | none => s
  | some k =>
    let reads := (s.startup.blocks.map BlockRead.reads).getD k 0
    match outcome with
    | some d =>
      (s.updStartup fun u => { u with blocks := u.blocks.set k { reads := reads, contents := some d } }).scanBlocksIn
    | none =>
      if reads - 1 < s.params.retryLimit then
        (s.updStartup fun u =>
          { u with blocks := u.blocks.set k { reads := reads + 1, contents := none } }).handRoll [readBlock .startup addr]
      else s.scanExhausted addr reads

/-! ## The slots' outcomes -/

/-- Both slots have an outcome (R119): LOG_FAULT when a slot could not be read (R120), NOLOG when neither is valid, and
otherwise SCANNING from the current anchor's durable tail (R121, R122). -/
def State.select (s : State) : State :=
  if s.slotExhausted 0 || s.slotExhausted 1 then s.startupLogFault
  else
    match s.selectAnchor with
    | none => (s.setDevice .nolog).endStartup
    | some (slot, a) =>
      (((s.loadAnchor slot a).setDevice .scanning).updStartup fun u =>
        { u with position := a.tail, expected := a.tailSeq, distance := 0, blocks := [],
                 trackers := Vector.replicate 8 { seen := none, candidate := none } }).scanHere

/-- The anchor slot at a byte address. -/
def State.slotAt (s : State) (addr : Nat) : Option (Fin 2) := [0, 1].find? fun i => s.slotAddr i == addr

/-- A slot's reads and outcome become `x`. -/
def State.setSlot (s : State) (slot : Fin 2) (x : SlotRead) : State :=
  s.updStartup fun u => { u with slots := u.slots.set slot.val x }

/-- Selection is made once both slots have an outcome (R119). -/
def State.selectWhenKnown (s : State) : State := if s.slotKnown 0 && s.slotKnown 1 then s.select else s

/-- The outcome of an anchor-slot read (R119, R120). The RECOVERY_READ of an exhausted slot is pushed on the event that gives
both slots an outcome (DEDUCED, notes/assumptions/34.md). -/
def State.slotReadOutcome (s : State) (addr : Nat) (outcome : Option Line) : State :=
  match s.slotAt addr with
  | none => s
  | some slot =>
    let x := s.startup.slots.get slot
    match outcome with
    | some d => (s.setSlot slot { x with outcome := .read d }).selectWhenKnown
    | none =>
      if x.reads - 1 < s.params.retryLimit then
        (s.setSlot slot { x with reads := x.reads + 1 }).handAnchor [readBlock .startup addr]
      else (s.setSlot slot { x with outcome := .exhausted }).selectWhenKnown

/-- The outcome of a request of the Start-up Controller (R119, R123). -/
def State.startupOutcome (s : State) (addr : Nat) (outcome : Option Line) : State :=
  match s.device with
  | .start => s.slotReadOutcome addr outcome
  | .scanning => s.scanOutcome addr outcome
  | _ => s

end Sys2Proof.Machine
end

