-- ==== Sys2Proof/Machine/Quiesce.lean ====
section
/-! DEFINITION. Power-fail quiesce (07_power_fail_quiesce.md): the entry to QUIESCING, the finishing of work in flight, a
stall during quiesce, the end of SETTLING and the closing anchor. -/

namespace Sys2Proof.Machine

/-- The entries answered POWER on entry to QUIESCING: every one that is not ISSUED and is not a READY in-place write
(R140). -/
def State.powerEntries (s : State) : List Entry :=
  s.table.filter fun e => e.state != .issued && !(e.state == .ready && e.handling == some .inPlace)

/-- The builder becomes IDLE in quiesce when its last outstanding request is answered or has timed out (R142). -/
def State.writerSettled (s : State) : State :=
  if s.dport.logQueue.isEmpty && !s.anyTag (Tag.outstandingFor .logWriter) then
    s.updWriter fun w => { w with builder := none }
  else s

/-- A rewrite has been handed and none of its block writes issued: the rewrite has not begun (R142). -/
def State.rewriteNotBegun (s : State) (u : VerifiedUnit) : Bool :=
  decide (1 < u.attempts) && s.dport.logQueue.length == u.blocks.length

/-- Whether the builder goes on issuing block writes in quiesce: only the blocks of an attempt in its write phase that
has begun (R142). -/
def State.finishesWrites (s : State) : BuildStage → Bool
  | .reading => false
  | .marker u => !u.readBack && !s.rewriteNotBegun u
  | .writing u => !u.readBack && !s.rewriteNotBegun u
  | .finishing => true

/-- The Log Writer at the entry to QUIESCING (R139, R142): the closing queue is emptied, every waiting group discarded,
and the builder finishes at most the write phase it is in. -/
def State.quiesceWriter (s : State) : State :=
  let s := s.updWriter fun w =>
    { w with closing := [], deferred := none, granted := none, held := Vector.replicate 8 none }
  match s.writer.builder with
  | none => s
  | some b =>
    let t := s.updWriter fun w =>
      { w with builder := some { b with stage := .finishing, group := b.group.map fun g => { g with members := [] } } }
    (if s.finishesWrites b.stage then t else t.stopOwner .logWriter).writerSettled

/-- The Rollback Engine at the entry to QUIESCING (R143): the write of a line restore in its write phase is still issued
and awaited, and everything else is withdrawn or discarded. -/
def State.quiesceEngine (s : State) : State :=
  match s.engine.restore with
  | some u => if u.readBack then s.stopOwner .rollback else s
  | none => s.stopOwner .rollback

/-- Every downstream tag is quarantined during quiesce (R141, R146): READY entries are answered POWER, everything still
to be issued and any anchor write are abandoned, and a closing anchor so abandoned halts. -/
def State.quiesceStall (s : State) : State :=
  let s := s.updPowerFail fun p => { p with stalled := true }
  let s := s.answerErrors (s.table.filter fun e => e.state == .ready) fun _ => .power
  let s := s.updDport fun d => { d with anchorQueue := [], logQueue := [], rollQueue := [] }
  let s := (s.updLog fun l => { l with anchor := none }).writerSettled
  if s.powerFail.phase = .anchoring then s.halt else s

/-- The entry to QUIESCING (R138 to R143). -/
def State.quiesce (s : State) : State :=
  let s := s.updPowerFail fun p => { p with phase := .settling, entry := some s.device }
  let s := s.setDevice .quiescing
  let s := s.updLog fun l =>
    { l with deferred := none, anchorWanted := false, recoveryWanted := false, formatPending := false }
  let s := s.answerErrors s.powerEntries fun _ => .power
  let s := s.quiesceWriter.quiesceEngine.stopOwner .startup
  if s.portStalled then s.quiesceStall else s

/-- SETTLING ends when the table is empty, nothing is outstanding or still to be issued, the builder is IDLE and no
anchor write is in progress (R144). -/
def State.settled (s : State) : Bool :=
  s.table.isEmpty && !s.anyTag Tag.isOutstanding && s.writer.builder.isNone && s.log.anchor.isNone
    && s.dport.anchorQueue.isEmpty && s.dport.logQueue.isEmpty && s.dport.rollQueue.isEmpty

/-- A closing anchor is written (R145). -/
def State.closingAnchorDue (s : State) : Bool :=
  (s.powerFail.entry == some .run || s.powerFail.entry == some .restoring)
    && s.log.volatileTail != s.log.durableTail && !s.powerFail.stalled

/-- The phase becomes ANCHORING: the closing anchor starts, or the phase becomes HALTED at once (R144 to R147). -/
def State.endSettling (s : State) : State :=
  let s := s.updPowerFail fun p => { p with phase := .anchoring }
  if s.closingAnchorDue then s.startAnchor .closing else s.halt

end Sys2Proof.Machine
end

