-- ==== Sys2Proof/Machine/FollowOn.lean ====
section
/-! DEFINITION. What follows on the same event: the start of an entry whose line has become clear (R151, R155), the start
of the next walk (R85), the end of a walk's drain (R86), the end of recovery (R130, R134) and the end of SETTLING
(R144). -/

namespace Sys2Proof.Machine

/-- The device is in RUN or RESTORING, where the Log Writer and the Rollback Engine work (R66, R85, R131). -/
def State.working (s : State) : Bool := s.device == .run || s.device == .restoring

/-- The entry under a tag starts if the same-line order lets it (R155, R156). -/
def State.startDue (s : State) (tag : HostTag) : State :=
  match s.entry tag with
  | some e => if s.mayStart e then s.startEntry e else s
  | none => s

/-- Every entry that may start does, in acceptance order (R155). An entry answered on its start leaves its line to the next
older one, which comes later in the same pass. -/
def State.startEntries (s : State) : State := (s.table.map Entry.tag).foldl State.startDue s

/-- A walk starts when the engine is IDLE, a region is queued and the device is in RUN or RESTORING (R85). -/
def State.nextWalk (s : State) : State :=
  match s.engine.walk, s.engine.queue with
  | none, r :: _ => if s.working then s.startWalk r else s
  | _, _ => s

/-- A walk in DRAINING passes to WALKING once its drain is over (R86). -/
def State.passDrain (s : State) : State :=
  match s.engine.walk with
  | some r => if s.working && (s.region r).sub == .draining && s.drainOver r then s.startWalking r else s
  | none => s

/-- Recovery has ended (R134): in RESTORING, the rollback queue empty and the engine IDLE. -/
def State.recovered (s : State) : Bool :=
  s.device == .restoring && s.engine.queue.isEmpty && s.engine.walk.isNone

/-- The recovery anchor write starts, or waits for the anchor write in progress to be verified (R134). -/
def State.endRecovery (s : State) : State :=
  match s.log.anchor with
  | none => s.startAnchor .recovery
  | some a => if a.purpose = .recovery then s else s.updLog fun l => { l with recoveryWanted := true }

/-- Recovery ends once it has, on the event that ends it (R130, R134). -/
def State.passRecovery (s : State) : State := if s.recovered then s.endRecovery else s

/-- SETTLING ends once all the quiesce work has drained (R144). -/
def State.passSettling (s : State) : State :=
  if s.device = .quiescing ∧ s.powerFail.phase = .settling ∧ s.settled = true then s.endSettling else s

/-- What follows on the event that leaves state `s`: R155's starts, R85's next walk, R86's end of a drain, R134's end of
recovery and R144's end of SETTLING, each where its conditions hold. That they come after the event's own effects, in this
order, is the model's reading (DEDUCED, notes/assumptions/3.md). -/
def State.followOn (s : State) : State := s.startEntries.nextWalk.passDrain.passRecovery.passSettling

end Sys2Proof.Machine
end

