-- ==== Sys2Proof/Machine/Downstream.lean ====
section
/-! DEFINITION. The downstream port (09_downstream_port.md): the arbiter, issue, and the delivery of outcomes to their
owners. -/

namespace Sys2Proof.Machine

/-! ## The arbiter (R164, R165) -/

/-- The oldest READY entry (R163, R164). -/
def State.hostHead (s : State) : Option Entry := s.table.find? fun e => e.state == .ready

/-- A host entry's request, forwarded unchanged (R161). -/
def Entry.request (e : Entry) : DownRequest :=
  { owner := .entry e.tag, op := e.op, addr := e.addr, count := e.count, data := e.data, strobes := e.strobes }

/-- The head of the first class queue that holds a request, in the order anchor, log writer, rollback (R164). -/
def Downstream.queued (d : Downstream) : Option (IssueClass × DownRequest) :=
  match d.anchorQueue, d.logQueue, d.rollQueue with
  | q :: _, _, _ => some (.anchor, q)
  | [], q :: _, _ => some (.logWriter, q)
  | [], [], q :: _ => some (.rollback, q)
  | [], [], [] => none

/-- The request the arbiter chooses (R164): the host share, then strict priority, then the host class. -/
def State.choose (s : State) : Option (IssueClass × DownRequest) :=
  let host := s.hostHead.map fun e => (IssueClass.host, e.request)
  if s.dport.share = Config.hostShare ∧ host.isSome then host
  else
    match s.dport.queued with
    | some x => some x
    | none => host

/-- The share count after an issue of a class (R165). -/
def State.shareAfter (s : State) (cls : IssueClass) : Nat :=
  if cls = .host then 0 else if s.hostHead.isSome then min (s.dport.share + 1) Config.hostShare else 0

/-- The chosen request leaves its class queue, or its entry becomes ISSUED (R166). -/
def State.leaveClass (s : State) (cls : IssueClass) (q : DownRequest) : State :=
  match cls with
  | .anchor => s.updDport fun d => { d with anchorQueue := d.anchorQueue.tail }
  | .logWriter => s.updDport fun d => { d with logQueue := d.logQueue.tail }
  | .rollback => s.updDport fun d => { d with rollQueue := d.rollQueue.tail }
  | .host =>
    match q.owner with
    | .entry t => s.updEntry t fun e => { e with state := .issued }
    | _ => s

/-- A request is issued under a tag (R166). -/
def State.issueRequest (s : State) (t : DownTag) (cls : IssueClass) (q : DownRequest) : State :=
  let share := s.shareAfter cls
  let s := (s.leaveClass cls q).setTag t
    (.outstanding q.owner cls q.op q.addr s.params.dto s.timebase.elapsed true)
  let s := s.updDport fun d => { d with share := share }
  { s with issued := s.issued ++ [(t, q)] }

/-- One transfer the memory accepts (R164): the arbiter's choice goes out under the lowest FREE tag. -/
def State.issueNext (s : State) : State :=
  if s.issueAllowed && s.device != .halted then
    match s.lowestFree, s.choose with
    | some t, some (cls, q) => s.issueRequest t cls q
    | _, _ => s
  else s

/-! ## Outcomes (R158, R167, R168, R172) -/

/-- The region of an entry's class (R106, R115). -/
def Entry.classRegion (e : Entry) : Option RegionId :=
  match e.cls with
  | some (.region r) => some r
  | _ => none

/-- The fault a failed host request pushes: DATA_WRITE for an in-place write, PASS_MEDIA for any other (R82, R106). -/
def Entry.mediaFault (e : Entry) : FaultEntry :=
  faultEntry (if e.handling = some .inPlace then .dataWrite else .passMedia) e.classRegion (some e.addr) none 1

/-- An ISSUED entry's completion or timeout (R158). -/
def State.completeEntry (s : State) (t : HostTag) (outcome : Option Line) : State :=
  match s.entry t with
  | none => s
  | some e =>
    if e.state ≠ .issued then s
    else
      match outcome with
      | some d => s.answer e .none (if e.op = .read then dataWords e.count d else [])
      | none => (s.pushFault e.mediaFault).answerError e .media

/-- An outcome goes to the request's owner, `none` for an ERR or a timeout (R167, R168). A stopped owner discards it
(R172), and in QUIESCING the Log Writer, the Rollback Engine and the Start-up Controller discard theirs (R142, R143). -/
def State.deliver (s : State) (owner : Owner) (live : Bool) (addr : Nat) (outcome : Option Line) : State :=
  match owner with
  | .entry t => s.completeEntry t outcome
  | .logManager => if live then s.anchorOutcome addr outcome else s
  | .logWriter =>
    if s.device = .quiescing then s.writerSettled else if live then s.writerOutcome addr outcome else s
  | .rollback => if live ∧ s.device ≠ .quiescing then s.rollbackOutcome addr outcome else s
  | .startup => if live then s.startupOutcome addr outcome else s

/-- A response arrives on a tag (R167, R169). -/
def State.respond (s : State) (t : DownTag) (ok : Bool) (data : Line) : State :=
  match s.tag t with
  | .free => s
  | .quarantined _ => (s.setTag t .free).followOn
  | .outstanding owner _ _ addr _ _ live =>
    ((s.setTag t .free).deliver owner live addr (if ok then some data else none)).followOn

/-- The DPORT_STALLED push (R170). -/
def stallFault : FaultEntry := faultEntry .dportStalled none none none 0

/-- The stall begins (R170): DPORT_STALLED is pushed, and during quiesce the Power-Fail Controller deals with it (R141),
unless the expiry has just ended quiesce. -/
def State.stallBegins (s : State) : State :=
  let s := s.pushFault stallFault
  match s.device with
  | .quiescing => s.quiesceStall
  | .halted => s.updPowerFail fun p => { p with stalled := true }
  | _ => s

/-- The expiry that may bring the quarantine to 32 tags: the stall then begins, before or after the owner acts on the
timeout (R114, R170), as the free value has it. -/
def State.expire (s : State) (owner : Owner) (live : Bool) (addr : Nat) : State :=
  if s.portStalled then
    let first := Config.stallPushedFirst s.freeCount
    let s := { s with freeCount := s.freeCount + 1 }
    if first then s.stallBegins.deliver owner live addr none else (s.deliver owner live addr none).stallBegins
  else s.deliver owner live addr none

/-- A tag's response timer expires (R168). -/
def State.timeout (s : State) (t : DownTag) : State :=
  match s.tag t with
  | .outstanding owner _ _ addr _ _ live => ((s.setTag t (.quarantined addr)).expire owner live addr).followOn
  | _ => s

end Sys2Proof.Machine
end

