-- ==== Sys2Proof/Machine/Link.lean ====
section
/-! DEFINITION. The management link (11_management_link.md): when a command is taken, the device-state admission, the
frame in progress with its phases, and what SDO shifts out in each. -/

namespace Sys2Proof.Machine

/-- What a command's owner answers: its result, its result data and the state it leaves (R183). -/
structure Reply where
  result : ResultCode
  data : List Byte
  state : State
deriving DecidableEq, Repr

/-- The result with no change and no data (R184). -/
def State.reply (s : State) (r : ResultCode) : Reply := { result := r, data := [], state := s }

/-- OK with no data, leaving state `t`. -/
def done (t : State) : Reply := { result := .ok, data := [], state := t }

/-- A frame's command can be taken: RESET_N is not asserted, no assertion left over from reset is being ignored (R187),
and the link holds no frame, since a second command needs a new frame (R182, R183). -/
def State.linkFree (s : State) : Bool := !s.inReset && !s.link.ignoring && s.link.frame.isNone

/-- The device states in which the link hands on every known command (R186). -/
def State.admitsAll (s : State) : Bool := s.device == .run || s.device == .nolog || s.device == .logFault

/-- The frame in progress becomes `f`. -/
def State.holdFrame (s : State) (f : Frame) : State := { s with link := { s.link with frame := some f } }

/-- The frame of a command at the moment it is taken: every bit of its bytes has been clocked in, and the answer stands
ready (R182, R183). -/
def Frame.taken (c : Instr) (result : ResultCode) (data : List Byte) : Frame :=
  { received := frameBytes c, bits := [], edges := 8 * (frameBytes c).length,
    answer := some { result := result, data := data } }

/-- The frame of a taken command: the data are the reply's when the result is OK, and zeros otherwise (R184). -/
def replyFrame (c : Instr) (len : Nat) (result : ResultCode) (data : List Byte) : Frame :=
  .taken c result (if result = .ok then data else List.replicate len 0)

/-- A command with `len` result data bytes is taken (R183): its owner acts and the result is fixed. -/
def State.takeCommand (s : State) (c : Instr) (len : Nat) (owner : State → Reply) : State :=
  if s.linkFree then
    let r := owner s
    r.state.holdFrame (replyFrame c len r.result r.data)
  else s

/-- A command the link hands on in RUN, NOLOG and LOG_FAULT only; elsewhere it returns BUSY before any check (R186). -/
def gated (owner : State → Reply) (s : State) : Reply := if s.admitsAll then owner s else s.reply .busy

/-- A command on a region, by its operand byte: NO_REGION when it is above 7. -/
def onRegion (b : Byte) (owner : RegionId → State → Reply) (s : State) : Reply :=
  match regionOf b with
  | some r => owner r s
  | none => s.reply .noRegion

/-! ## Output pins -/

/-- The code of a result (Table 11-2). -/
def ResultCode.code : ResultCode → Byte
  | .ok => 0x00
  | .state => 0x01
  | .noRegion => 0x02
  | .badArg => 0x03
  | .noLog => 0x04
  | .busy => 0x05
  | .overlap => 0x06

/-- The phases of a frame (Table 11-1). -/
inductive FramePhase where
  | command
  | operands
  | turnaround
  | result
  | data
  | trailing
deriving DecidableEq, Repr

/-- The phase of a frame (R182, Table 11-1), by its byte position, eight rising edges to a byte. Until its command is taken
a frame is at its command byte or among its operand bytes. -/
def Frame.phase (f : Frame) : FramePhase :=
  match f.answer with
  | none => if f.received.isEmpty then .command else .operands
  | some a =>
    let position := f.edges / 8
    if position ≤ f.received.length then .turnaround
    else if position = f.received.length + 1 then .result
    else if position < f.received.length + 2 + a.data.length then .data
    else .trailing

/-- The byte SDO shifts at a byte position of a frame (Table 11-1): the result byte follows the turnaround byte, then the
result data, and 0x00 everywhere else. -/
def Frame.sdo (f : Frame) (position : Nat) : Byte :=
  match f.answer with
  | none => 0
  | some a =>
    if position = f.received.length + 1 then a.result.code
    else if position < f.received.length + 2 then 0
    else a.data.getD (position - (f.received.length + 2)) 0

/-- SDO at a byte position of the frame in progress, and none while it is not driven: with RESET_N asserted or no frame
(R182, R187, R197). -/
def State.sdo (s : State) (position : Nat) : Option Byte :=
  if s.inReset then none else s.link.frame.map fun f => f.sdo position

/-- SAFE is driven high (R147, R197). -/
def State.safe (s : State) : Bool := !s.inReset && s.powerFail.safe

end Sys2Proof.Machine
end

