-- ==== Sys2Proof/Machine/LinkReads.lean ====
section
/-! DEFINITION. The management link's read commands: IDENT, READ_STATUS, READ_LOG, READ_REGION, READ_PARAM,
READ_PENDING, READ_FAULT and CLAIM, with their result data (Tables 11-4 and 11-6 to 11-9). -/

namespace Sys2Proof.Machine

/-! ## Enumeration codes (Table 11-9) -/

/-- Device state code. -/
def DeviceState.code : DeviceState → Nat
  | .start => 0
  | .scanning => 1
  | .restoring => 2
  | .run => 3
  | .nolog => 4
  | .formatting => 5
  | .logFault => 6
  | .quiescing => 7
  | .halted => 8

/-- Power-Fail phase code. -/
def Phase.code : Phase → Nat
  | .none => 0
  | .settling => 1
  | .anchoring => 2
  | .halted => 3

/-- OUTSIDE code. -/
def Outside.code : Outside → Nat
  | .pass => 0
  | .refuse => 1

/-- SPACE code. -/
def SpacePolicy.code : SpacePolicy → Nat
  | .wait => 0
  | .fail => 1
  | .abort => 2

/-- AGE_ACTION code. -/
def AgeAction.code : AgeAction → Nat
  | .notify => 0
  | .abort => 1

/-- Pending apply code. -/
def PendingApply.code : PendingApply → Nat
  | .none => 0
  | .atClose => 1
  | .atBegin => 2

/-- Transaction state code. -/
def TxnState.code : TxnState → Nat
  | .idle => 0
  | .opened => 1
  | .committing => 2
  | .rollingBack => 3
  | .faulted => 4

/-- Rollback sub-state code. -/
def SubState.code : SubState → Nat
  | .none => 0
  | .queued => 1
  | .draining => 2
  | .walking => 3
  | .closing => 4

/-- Fault kind code; 0 is NONE. -/
def FaultKind.code : FaultKind → Nat
  | .logWrite => 1
  | .anchorWrite => 2
  | .rollbackRead => 3
  | .rollbackWrite => 4
  | .dataWrite => 5
  | .passMedia => 6
  | .dportStalled => 7
  | .upstreamProtocol => 8
  | .configReject => 9
  | .recoveryRead => 10

/-- A yes or no as a byte's value. -/
def yesNo (b : Bool) : Nat := if b then 1 else 0

/-- An optional number in one byte: none is 0xFF (R193). -/
def orNone8 (x : Option Nat) : Nat := x.getD 0xFF

/-! ## Result data -/

/-- IDENT's data (R188). -/
def State.identData (s : State) : List Byte :=
  beBytes 2 Config.deviceCode ++ beBytes 1 Config.revisionCode ++ beBytes 1 s.msize.val

/-- The number of entries in a state (R159). -/
def State.countEntries (s : State) (st : EntryState) : Nat := s.table.countP fun e => e.state == st

/-- READ_STATUS's data (R189, Table 11-6). -/
def State.statusData (s : State) : List Byte :=
  beBytes 1 s.device.code ++ beBytes 1 s.powerFail.phase.code ++ beBytes 1 s.table.length
    ++ ([EntryState.waitOrder, .waitRegion, .waitLog, .waitSpace, .ready, .issued].flatMap
        fun st => beBytes 1 (s.countEntries st))
    ++ beBytes 2 s.directory.length ++ beBytes 1 s.engine.queue.length ++ beBytes 1 (orNone8 (s.engine.walk.map Fin.val))
    ++ beBytes 1 s.faults.length ++ beBytes 1 (s.countTags Tag.isOutstanding)
    ++ beBytes 1 (s.countTags Tag.isQuarantined) ++ beBytes 1 (yesNo s.portStalled)

/-- READ_LOG's data (R190, Table 11-8). -/
def State.logData (s : State) : List Byte :=
  let l := s.log
  beBytes 1 (yesNo l.geometry.isSome) ++ beBytes 4 (l.geometry.elim 0 Geometry.base)
    ++ beBytes 4 (l.geometry.elim 0 Geometry.size) ++ beBytes 4 l.ring ++ beBytes 4 l.generation.toNat
    ++ beBytes 4 l.nextSeq.toNat ++ beBytes 4 l.head ++ beBytes 4 l.volatileTail ++ beBytes 4 l.tailSeq.toNat
    ++ beBytes 4 l.durableTail ++ beBytes 1 (orNone8 (l.slot.map Fin.val)) ++ beBytes 4 l.anchorSeq.toNat
    ++ beBytes 1 l.unresolved ++ beBytes 1 (yesNo l.anchor.isSome) ++ beBytes 4 (orNone (l.anchor.map AnchorWrite.tail))
    ++ beBytes 1 (yesNo l.anchorWanted) ++ beBytes 1 (orNone8 (l.deferred.map fun d => d.region.val))
    ++ beBytes 1 (l.deferred.elim 0 Deferred.lines) ++ beBytes 1 (yesNo l.below) ++ beBytes 4 l.free

/-- A descriptor's eleven bytes (Table 11-7). SIZE is carried as the number of lines minus one. -/
def Descriptor.bytes (d : Descriptor) : List Byte :=
  beBytes 1 (yesNo d.enable) ++ beBytes 3 d.base ++ beBytes 2 (d.size - 1) ++ beBytes 1 d.outside.code
    ++ beBytes 1 d.space.code ++ beBytes 2 d.ageLimit ++ beBytes 1 d.ageAction.code

/-- READ_REGION's data (R30, Table 11-7). -/
def State.regionData (s : State) (r : RegionId) : List Byte :=
  let x := s.region r
  x.live.bytes ++ x.staged.bytes ++ beBytes 1 x.pendingApply.code ++ beBytes 1 x.txn.code
    ++ beBytes 4 x.number.toNat ++ beBytes 4 x.records ++ beBytes 4 (orNone x.firstIndex)
    ++ beBytes 4 (orNone x.lastIndex) ++ beBytes 1 (yesNo x.saturated) ++ beBytes 2 x.age ++ beBytes 1 x.sub.code
    ++ beBytes 2 (s.directoryCount r)

/-- The value of a parameter by its code (Table 11-5). -/
def Params.value (p : Params) (code : Nat) : Option Nat :=
  match code with
  | 0 => some p.tickPeriod
  | 1 => some p.retryLimit
  | 2 => some p.anchorStride
  | 3 => some p.spaceWatermark
  | 4 => some p.dto
  | _ => none

/-- The flag mask of READ_PENDING: bit `s` for pending source `s`, 1 to 27 (Table 11-4). -/
def State.pendingMask (s : State) : Nat :=
  allSources.foldl (fun m src => m + (if s.flag src then 2 ^ src.val else 0)) 0

/-- READ_PENDING's data (R180, Table 11-4). -/
def State.pendingData (s : State) : List Byte :=
  beBytes 4 s.pendingMask ++ beBytes 1 s.notices.threshold ++ beBytes 1 (yesNo s.alert)

/-- READ_FAULT's data (R116, Table 11-4): the oldest entry, or kind NONE with count 0. -/
def State.faultData (s : State) : List Byte :=
  match s.faults with
  | [] =>
    beBytes 1 0 ++ beBytes 1 0 ++ beBytes 1 0xFF ++ beBytes 4 none32 ++ beBytes 4 none32 ++ beBytes 1 0 ++ beBytes 1 0
  | e :: _ =>
    beBytes 1 s.faults.length ++ beBytes 1 e.kind.code ++ beBytes 1 (orNone8 (e.region.map Fin.val))
      ++ beBytes 4 (orNone e.addr) ++ beBytes 4 (orNone (e.sequence.map BitVec.toNat)) ++ beBytes 1 e.attempts
      ++ beBytes 1 (yesNo e.overwritten)

/-! ## Claiming (R178) -/

/-- Whether a source is preferred to the best found so far among lower numbers: a greater priority, or none found. -/
def better (n : Notices) (best : Option Source) (src : Source) : Bool :=
  match best with
  | none => true
  | some b => decide (n.priority.get b < n.priority.get src)

/-- The source CLAIM selects: the signalling source of the greatest priority, lowest number on ties (R178). -/
def claimed (n : Notices) : Option Source :=
  allSources.foldl (fun best src => if signals n src && better n best src then some src else best) none

/-- A source's flag becomes no (R175). -/
def State.clearNotice (s : State) (src : Source) : State :=
  { s with notices := { s.notices with flags := s.notices.flags.set src.val false } }

/-- CLAIM's answer (R178). -/
def claimReply (s : State) : Reply :=
  match claimed s.notices with
  | some src => { result := .ok, data := beBytes 1 src.val, state := s.clearNotice src }
  | none => { result := .ok, data := beBytes 1 0, state := s }

/-! ## The commands -/

/-- A read command: OK with data, changing nothing. -/
def readReply (data : State → List Byte) (s : State) : Reply := { result := .ok, data := data s, state := s }

/-- READ_PARAM's answer (R192). -/
def readParamReply (p : Byte) (s : State) : Reply :=
  match s.params.value p.toNat with
  | some v => { result := .ok, data := beBytes 2 v, state := s }
  | none => s.reply .badArg

/-- IDENT (R188). -/
def execIdent (s : State) : Out := .next (s.takeCommand .ident 4 (readReply State.identData))

/-- READ_STATUS (R189). -/
def execReadStatus (s : State) : Out := .next (s.takeCommand .readStatus 17 (readReply State.statusData))

/-- READ_LOG (R190). -/
def execReadLog (s : State) : Out := .next (s.takeCommand .readLog 56 (readReply State.logData))

/-- READ_REGION r (R30). -/
def execReadRegion (r : Byte) (s : State) : Out :=
  .next (s.takeCommand (.readRegion r) 46 (gated (onRegion r fun q => readReply fun s => s.regionData q)))

/-- READ_PARAM p (R192). -/
def execReadParam (p : Byte) (s : State) : Out := .next (s.takeCommand (.readParam p) 2 (readParamReply p))

/-- READ_PENDING (R180). -/
def execReadPending (s : State) : Out := .next (s.takeCommand .readPending 6 (readReply State.pendingData))

/-- READ_FAULT (R116). -/
def execReadFault (s : State) : Out := .next (s.takeCommand .readFault 13 (readReply State.faultData))

/-- CLAIM (R178). -/
def execClaim (s : State) : Out := .next (s.takeCommand .claim 1 claimReply)

end Sys2Proof.Machine
end

