-- ==== Sys2Proof/Machine/LinkCommands.lean ====
section
/-! DEFINITION. The management link's other commands: STAGE, the four APPLY points, BEGIN, COMMIT, ABORT, RETRY, FORMAT,
SET_PARAM, SET_PRIORITY, SET_THRESHOLD, POP_FAULT, DPORT_CLEAR, an unknown command, and the two ends of a frame. -/

namespace Sys2Proof.Machine

/-! ## Staging and applying (R6 to R10) -/

/-- A descriptor with one field written, by field code, when the value is one the field takes (R6). -/
def Descriptor.withField (d : Descriptor) (memory code v : Nat) : Option Descriptor :=
  match code with
  | 0 => match v with
    | 0 => some { d with enable := false }
    | 1 => some { d with enable := true }
    | _ => none
  | 1 => if v % 32 = 0 ∧ v < memory then some { d with base := v } else none
  | 2 => if v ≤ 0xFFFF then some { d with size := v + 1 } else none
  | 3 => match v with
    | 0 => some { d with outside := .pass }
    | 1 => some { d with outside := .refuse }
    | _ => none
  | 4 => match v with
    | 0 => some { d with space := .wait }
    | 1 => some { d with space := .fail }
    | 2 => some { d with space := .abort }
    | _ => none
  | 5 => if v ≤ 0xFFFF then some { d with ageLimit := v } else none
  | 6 => match v with
    | 0 => some { d with ageAction := .notify }
    | 1 => some { d with ageAction := .abort }
    | _ => none
  | _ => none

/-- STAGE's answer (R6). -/
def stageReply (field : Byte) (value : Word32) (r : RegionId) (s : State) : Reply :=
  match (s.region r).staged.withField s.memorySize field.toNat value.toNat with
  | some d => done (s.updRegion r fun x => { x with staged := d })
  | none => s.reply .badArg

/-- APPLY NOW's answer (R7). -/
def applyNowReply (r : RegionId) (s : State) : Reply :=
  if (s.region r).txn = .idle then
    if s.stagedPasses r then done (s.applyStaged r) else s.reply .overlap
  else s.reply .state

/-- APPLY AT_CLOSE's answer (R8): made at once in IDLE, where the pending apply becomes NONE either way. -/
def applyAtCloseReply (r : RegionId) (s : State) : Reply :=
  if (s.region r).txn = .idle then
    if s.stagedPasses r then done (s.applyStaged r)
    else { result := .overlap, data := [], state := s.setApply r .none }
  else done (s.setApply r .atClose)

/-- APPLY AT_BEGIN's answer (R9). -/
def applyAtBeginReply (r : RegionId) (s : State) : Reply := done (s.setApply r .atBegin)

/-- APPLY CANCEL's answer (R10). -/
def applyCancelReply (r : RegionId) (s : State) : Reply := done (s.setApply r .none)

/-! ## Transactions (R15 to R25) -/

/-- A region enters OPEN (R15). -/
def State.openTxn (s : State) (r : RegionId) : State :=
  s.updRegion r fun x =>
    { x with txn := .opened, records := 0, firstIndex := none, lastIndex := none, saturated := false, age := 0,
             sub := .none, drain := [], recordPhase := false, expiryDue := false }

/-- Step 6 of BEGIN's checks and the entry to OPEN (R15). -/
def beginEnabled (r : RegionId) (s : State) : Reply :=
  if (s.region r).live.enable then done (s.openTxn r) else { result := .state, data := [], state := s }

/-- BEGIN's answer (R15), steps 3 to 6. -/
def beginReply (r : RegionId) (s : State) : Reply :=
  if s.device = .nolog ∨ s.device = .logFault then s.reply .noLog
  else if (s.region r).txn ≠ .idle then s.reply .state
  else if (s.region r).pendingApply = .atBegin then
    if s.stagedPasses r then beginEnabled r (s.applyStaged r)
    else { result := .overlap, data := [], state := s.setApply r .none }
  else beginEnabled r s

/-- The HELD group of a region at COMMIT: its members are answered NO_SPACE and its PENDING entries removed (R18). -/
def State.refuseHeld (s : State) (r : RegionId) : State :=
  match s.writer.held.get r with
  | some h =>
    ((s.updWriter fun w => { w with held := w.held.set r.val none }).answerErrors (s.entriesOf h.group.members)
      fun _ => .noSpace).dropPending r h.group.tracked
  | none => s

/-- The drain set of a commit: every write in the table whose address lies in the live window (R18). -/
def State.commitDrainSet (s : State) (r : RegionId) : List HostTag :=
  (s.table.filter fun e => e.op == .write && (s.region r).live.holds e.addr).map Entry.tag

/-- A commit is taken (R18). -/
def State.takeCommit (s : State) (r : RegionId) : State :=
  let s := s.updRegion r fun x => { x with txn := .committing, recordPhase := false, expiryDue := false }
  let s := s.refuseHeld r
  let drain := s.commitDrainSet r
  let s := s.updRegion r fun x => { x with drain := drain }
  if drain.isEmpty ∧ (s.region r).records = 0 then s.completeCommit r else s

/-- COMMIT's answer (R17). -/
def commitReply (r : RegionId) (s : State) : Reply :=
  if (s.region r).txn = .opened then done (s.takeCommit r).followOn else s.reply .state

/-- ABORT's answer (R22). -/
def abortReply (r : RegionId) (s : State) : Reply :=
  if (s.region r).txn = .opened then done (s.abortTxn r).followOn else s.reply .state

/-- RETRY's answer (R25), steps 3 and 4. -/
def retryReply (r : RegionId) (s : State) : Reply :=
  if s.device = .nolog ∨ s.device = .logFault then s.reply .noLog
  else if (s.region r).txn = .faulted then done (s.queueWalk r).followOn
  else s.reply .state

/-! ## FORMAT (R55 to R57) -/

/-- Some region is in a state other than IDLE or FAULTED (R55, step 3). -/
def State.someTxnRuns (s : State) : Bool :=
  allRegions.any fun r => (s.region r).txn != .idle && (s.region r).txn != .faulted

/-- A new log area includes an anchor block or meets the live window of an enabled region (R55, step 5). -/
def State.areaMeets (s : State) (base size : Nat) : Bool :=
  decide (s.memorySize - 64 < base + size) ||
    allRegions.any fun r =>
      (s.region r).live.enable && spansMeet base size (s.region r).live.base (32 * (s.region r).live.size)

/-- The generation a FORMAT takes (R56). -/
def LogState.nextGeneration (l : LogState) : Word32 :=
  if l.slot.isSome then (if l.generation = 0xFFFFFFFF then 1 else l.generation + 1) else 1

/-- The started entries whose address lies in a new log area (R57). -/
def State.startedIn (s : State) (g : Geometry) : List HostTag :=
  (s.table.filter fun e => e.state != .waitOrder && g.holds e.addr).map Entry.tag

/-- A region when FORMAT is taken: its number becomes 1, and a FAULTED region returns to IDLE (R56, step 4), with the
pending AT_CLOSE apply of R23, step 4 (DEDUCED, notes/assumptions/32.md). -/
def State.formatRegion (s : State) (r : RegionId) : State :=
  let s := s.updRegion r fun x => { x with number := 1 }
  if (s.region r).txn = .faulted then s.returnToIdle r fun _ => 1 else s

/-- FORMAT is taken (R56). The regions are dealt with in ascending number, which decides between two AT_CLOSE applies that
exclude each other and orders the CONFIG_REJECT pushes of R11 (DESIGN CHOICE, notes/assumptions/30.md). -/
def State.takeFormat (s : State) (g : Geometry) : State :=
  let drain := s.startedIn g
  let s := s.setDevice .formatting
  let s := s.updLog fun l =>
    { l with geometry := some g, generation := l.nextGeneration, nextSeq := 0, head := 0, volatileTail := 0,
             tailSeq := 0, durableTail := 0, unresolved := 0, firstSeqs := Vector.replicate 8 none,
             anchorWanted := false, formatPending := true, formatDrain := drain }
  allRegions.foldl State.formatRegion s.setLevel

/-- FORMAT's answer (R55), steps 2 to 5. -/
def formatReply (base units : Nat) (s : State) : Reply :=
  let g : Geometry := { base := base, size := 4096 * units }
  if ¬(base % 4096 = 0 ∧ 2 ≤ units ∧ units ≤ 512) then s.reply .badArg
  else if s.device ≠ .logFault ∧ s.someTxnRuns = true then s.reply .state
  else if s.log.anchor.isSome then s.reply .busy
  else if s.areaMeets g.base g.size then s.reply .overlap
  else done (s.takeFormat g).followOn

/-! ## Parameters, notices, faults, the downstream port -/

/-- The parameters with one set, when the value lies in its range (R191, Table 11-5). -/
def Params.set (p : Params) (code v : Nat) : Option Params :=
  match code with
  | 0 => if 1 ≤ v ∧ v ≤ 1024 then some { p with tickPeriod := v } else none
  | 1 => if v ≤ 7 then some { p with retryLimit := v } else none
  | 2 => if v ≤ 65535 then some { p with anchorStride := v } else none
  | 3 => if v ≤ 65535 then some { p with spaceWatermark := v } else none
  | 4 => if 1 ≤ v ∧ v ≤ 255 then some { p with dto := v } else none
  | _ => none

/-- SET_PARAM's answer (R191). -/
def setParamReply (code v : Nat) (s : State) : Reply :=
  match s.params.set code v with
  | some p => done { s with params := p }
  | none => s.reply .badArg

/-- SET_PRIORITY's answer (R176). -/
def setPriorityReply (src p : Nat) (s : State) : Reply :=
  if h : src < 28 then
    if src ≠ 0 ∧ p ≤ 7 then done { s with notices := { s.notices with priority := s.notices.priority.set src p h } }
    else s.reply .badArg
  else s.reply .badArg

/-- SET_THRESHOLD's answer (R176). -/
def setThresholdReply (t : Nat) (s : State) : Reply :=
  if t ≤ 7 then done { s with notices := { s.notices with threshold := t } } else s.reply .badArg

/-- POP_FAULT's answer (R117). -/
def popFaultReply (s : State) : Reply :=
  match s.faults with
  | [] => s.reply .state
  | _ :: rest => done { s with faults := rest }

/-- A QUARANTINED tag is FREE again (R171). -/
def Tag.cleared : Tag → Tag
  | .quarantined _ => .free
  | t => t

/-- DPORT_CLEAR's answer (R171). -/
def dportClearReply (s : State) : Reply := done (s.mapTags Tag.cleared).followOn

/-- The answer to an APPLY whose point code names no point (R10). -/
def unknownPointReply (operands : List Byte) (s : State) : Reply :=
  gated (onRegion (operands.getD 0 0) fun _ s => s.reply .badArg) s

/-- An unknown command is taken: BAD_ARG for an unknown code in every device state (R185), and R10's answer for an APPLY
with an unknown point. Bytes that spell a known command are no unknown command and change nothing. -/
def State.takeUnknown (s : State) (code : Byte) (operands : List Byte) : State :=
  if unknownCode code operands then s.takeCommand (.unknownCommand code operands) 0 fun s => s.reply .badArg
  else if unknownPoint code operands then
    s.takeCommand (.unknownCommand code operands) 0 (unknownPointReply operands)
  else s

/-! ## The end of a frame (R183, R187) -/

/-- A frame is in progress whose command has been taken. -/
def Link.holdsTaken (l : Link) : Bool := l.frame.any fun f => f.answer.isSome

/-- SCS_N is deasserted: the link holds no frame and ignores nothing (R182, R187). -/
def State.endFrame (s : State) : State :=
  if s.inReset then s else { s with link := { ignoring := false, frame := none } }

/-! ## The commands -/

/-- STAGE r field value (R6). -/
def execStage (r field : Byte) (value : Word32) (s : State) : Out :=
  .next (s.takeCommand (.stage r field value) 0 (gated (onRegion r (stageReply field value))))

/-- APPLY r NOW (R7). -/
def execApplyNow (r : Byte) (s : State) : Out :=
  .next (s.takeCommand (.applyNow r) 0 (gated (onRegion r applyNowReply)))

/-- APPLY r AT_CLOSE (R8). -/
def execApplyAtClose (r : Byte) (s : State) : Out :=
  .next (s.takeCommand (.applyAtClose r) 0 (gated (onRegion r applyAtCloseReply)))

/-- APPLY r AT_BEGIN (R9). -/
def execApplyAtBegin (r : Byte) (s : State) : Out :=
  .next (s.takeCommand (.applyAtBegin r) 0 (gated (onRegion r applyAtBeginReply)))

/-- APPLY r CANCEL (R10). -/
def execApplyCancel (r : Byte) (s : State) : Out :=
  .next (s.takeCommand (.applyCancel r) 0 (gated (onRegion r applyCancelReply)))

/-- BEGIN r (R15). -/
def execBegin (r : Byte) (s : State) : Out :=
  .next (s.takeCommand (.beginTxn r) 0 (gated (onRegion r beginReply)))

/-- COMMIT r (R17, R18). -/
def execCommit (r : Byte) (s : State) : Out :=
  .next (s.takeCommand (.commit r) 0 (gated (onRegion r commitReply)))

/-- ABORT r (R22). -/
def execAbort (r : Byte) (s : State) : Out :=
  .next (s.takeCommand (.abort r) 0 (gated (onRegion r abortReply)))

/-- RETRY r (R25). -/
def execRetry (r : Byte) (s : State) : Out :=
  .next (s.takeCommand (.retry r) 0 (gated (onRegion r retryReply)))

/-- FORMAT base size (R55, R56). -/
def execFormat (base : BitVec 24) (units : BitVec 16) (s : State) : Out :=
  .next (s.takeCommand (.format base units) 0 (gated (formatReply base.toNat units.toNat)))

/-- SET_PARAM p v (R191). -/
def execSetParam (p : Byte) (v : BitVec 16) (s : State) : Out :=
  .next (s.takeCommand (.setParam p v) 0 (gated (setParamReply p.toNat v.toNat)))

/-- SET_PRIORITY src p (R176). -/
def execSetPriority (src p : Byte) (s : State) : Out :=
  .next (s.takeCommand (.setPriority src p) 0 (gated (setPriorityReply src.toNat p.toNat)))

/-- SET_THRESHOLD t (R176). -/
def execSetThreshold (t : Byte) (s : State) : Out :=
  .next (s.takeCommand (.setThreshold t) 0 (gated (setThresholdReply t.toNat)))

/-- POP_FAULT (R117). -/
def execPopFault (s : State) : Out := .next (s.takeCommand .popFault 0 (gated popFaultReply))

/-- DPORT_CLEAR (R171). -/
def execDportClear (s : State) : Out := .next (s.takeCommand .dportClear 0 (gated dportClearReply))

/-- An unknown command (R185, R10). -/
def execUnknownCommand (code : Byte) (operands : List Byte) (s : State) : Out := .next (s.takeUnknown code operands)

/-- SCS_N is deasserted before the command is taken: the bytes received are forgotten and nothing else happens (R183).
Bytes that complete a command are no discarded frame, and once the command of the frame in progress is taken the
deassertion is the frame's end, not a discard. -/
def execFrameDiscard (received : List Byte) (s : State) : Out :=
  .next (if incompleteFrame received && !s.link.holdsTaken then s.endFrame else s)

/-- SCS_N is deasserted after the command was taken, or ends an assertion left over from reset (R183, R187). -/
def execFrameEnd (s : State) : Out := .next s.endFrame

end Sys2Proof.Machine
end

