-- ==== Sys2Proof/Machine/Signals.lean ====
section
/-! DEFINITION. Events on the part's signals and of its time: reset, the wait before the first issue, the power-fail
warning, the Timebase's tick and an expiry of the age limit. -/

namespace Sys2Proof.Machine

/-- An event acts only while RESET_N is not asserted (R118). -/
def State.unlessReset (s : State) (f : State → State) : State := if s.inReset then s else f s

/-! ## Reset (R118) -/

/-- All work in progress ends without being completed (R118, R160, R173): no entry, no downstream request and no group,
record, walk or anchor write is left. -/
def State.abandonWork (s : State) : State :=
  let s := { s with table := [] }
  let s := s.updDport fun _ =>
    { tags := Vector.replicate 32 .free, anchorQueue := [], logQueue := [], rollQueue := [], share := 0 }
  let s := s.updWriter fun w =>
    { w with builder := none, closing := [], deferred := none, granted := none, held := Vector.replicate 8 none }
  let s := (s.updEngine fun e => { e with queue := [] }).endWalk
  s.updLog fun l =>
    { l with anchor := none, anchorWanted := false, deferred := none, recoveryWanted := false, formatPending := false,
             formatDrain := [] }

/-- RESET_N is asserted (R118, R187): SAFE and ALERT_N are deasserted, request ready is withdrawn, the link's frame is
discarded and all work is abandoned. -/
def State.assertReset (s : State) : State :=
  let s := s.abandonWork.updPowerFail fun p => { p with safe := false }
  { s with inReset := true, link := { s.link with frame := none } }

/-! ## Age counts (R27 to R29) -/

/-- A region's context after a tick in RUN (R27, R28): an OPEN region's count advances, holding at its top, and the
transaction is due to expire, on this tick, when the advance makes it equal to a limit that is not 0. -/
def Region.ticked (x : Region) : Region :=
  if x.txn = .opened ∧ x.age < Config.ageTop then
    { x with age := x.age + 1,
             expiryDue := x.expiryDue || (x.live.ageLimit != 0 && x.age + 1 == x.live.ageLimit) }
  else x

/-- A Timebase period ends (R26): the next one takes TICK_PERIOD as its length, and in RUN the age counts advance. The
expiries of the tick are `State.takeExpiries`. -/
def State.tick (s : State) : State :=
  let s := { s with timebase := { running := s.params.tickPeriod, elapsed := s.timebase.elapsed + s.timebase.running } }
  if s.device = .run then allRegions.foldl (fun s r => s.updRegion r Region.ticked) s else s

/-- A region's transaction is to expire: it is OPEN in RUN and its count has just reached its limit (R28). -/
def State.expiryDue (s : State) (r : RegionId) : Bool :=
  s.device == .run && (s.region r).txn == .opened && (s.region r).expiryDue

/-- The expiry of region `r` is the next to be taken: the expiries of one tick are taken in ascending region number, so
that the regions they abort join the rollback queue in that order (R84). -/
def State.mayExpire (s : State) (r : RegionId) : Bool :=
  s.expiryDue r && allRegions.all fun q => decide (r ≤ q) || !s.expiryDue q

/-- A transaction expires (R28, R29): AGE_EXPIRED is set, and with AGE_ACTION = ABORT the transaction is aborted. -/
def State.expireAge (s : State) (r : RegionId) : State :=
  let s := (s.updRegion r fun x => { x with expiryDue := false }).setNotice (ageExpired r)
  match (s.region r).live.ageAction with
  | .notify => s
  | .abort => s.abortTxn r

/-- A region's expiry is taken if it is due. -/
def State.takeExpiry (s : State) (r : RegionId) : State := if s.expiryDue r then s.expireAge r else s

/-- The expiries of a tick, in ascending region number: R84 gives that order to the regions that join the rollback queue, and
for the others, where it decides between two AT_CLOSE applies that exclude each other, it is the model's (DESIGN CHOICE,
notes/assumptions/11.md). -/
def State.takeExpiries (s : State) : State := allRegions.foldl State.takeExpiry s

/-! ## The events -/

/-- RESET_N is asserted (R118). -/
def execResetAssert (s : State) : Out := .next s.assertReset

/-- Reset ends or power-on completes (R118): every item takes its value after reset, with MSIZE sampled. The count of free
values used is the model's own and goes on. -/
def execResetRelease (msize : Fin 4) (selected : Bool) (s : State) : Out :=
  .next { State.afterReset msize selected s.pending with freeCount := s.freeCount }

/-- The 50 µs wait after reset ends (R118, R164). -/
def execFirstIssueDelayExpiry (s : State) : Out := .next (s.unlessReset fun s => { s with issueAllowed := true })

/-- PFAIL_N has been asserted for 1 µs (R138). -/
def execPowerFailWarning (s : State) : Out :=
  .next (s.unlessReset fun s => if s.device = .quiescing ∨ s.device = .halted then s else s.quiesce.followOn)

/-- A Timebase period ends (R26, R27): the age counts advance, and the transactions whose counts reach their limits expire on
the same tick (R28, R29). -/
def execTick (s : State) : Out := .next (s.unlessReset fun s => s.tick.takeExpiries.followOn)

/-- A region's age count has reached its limit (R28, R29). TICK takes every expiry of its tick, so the command finds one to
take only in a state that holds one still due (DESIGN CHOICE, notes/assumptions/11.md). -/
def execAgeExpiry (r : RegionId) (s : State) : Out :=
  .next (s.unlessReset fun s => if s.mayExpire r then (s.expireAge r).followOn else s)

end Sys2Proof.Machine
end

