-- ==== Sys2Proof/Machine/Ports.lean ====
section
/-! DEFINITION. The events of the two memory ports: a host request, an entry's start, an issue, a response and a
timeout. -/

namespace Sys2Proof.Machine

/-! ## A host request (R148, R151) -/

/-- A request is well formed (R148). -/
def HostRequest.wellFormed (q : HostRequest) (memory : Nat) : Bool :=
  q.addr.toNat % 4 == 0 && decide (q.addr.toNat < memory) && decide (1 ≤ q.count) && decide (q.count ≤ 8)
    && decide (q.addr.toNat % 32 + 4 * q.count ≤ 32)

/-- The first `count` data words of a WRITE, and no data for a READ (R148). -/
def HostRequest.writeData (q : HostRequest) : Line :=
  match q.op with
  | .read => 0
  | .write => q.data &&& BitVec.ofNat 256 (2 ^ (32 * q.count) - 1)

/-- The strobes of the first `count` words of a WRITE, and none for a READ (R148). -/
def HostRequest.writeStrobes (q : HostRequest) : Word32 :=
  match q.op with
  | .read => 0
  | .write => q.strobes &&& BitVec.ofNat 32 (2 ^ (4 * q.count) - 1)

/-- The Request Table entry of an accepted request (R151, R152). -/
def HostRequest.newEntry (q : HostRequest) : Entry :=
  { tag := q.tag, op := q.op, addr := q.addr.toNat, count := q.count, data := HostRequest.writeData q,
    strobes := HostRequest.writeStrobes q, cls := none, handling := none, state := .waitOrder }

/-- A host request is taken from the channel (R151): a duplicate tag is dropped with UPSTREAM_PROTOCOL, a malformed
request answered PROTOCOL, and any other entered in WAIT_ORDER and tested for start on the same event. -/
def State.takeRequest (s : State) (q : HostRequest) : State :=
  if (s.entry q.tag).isSome then
    s.pushFault (faultEntry .upstreamProtocol none (some q.addr.toNat) none 0)
  else if HostRequest.wellFormed q s.memorySize then 
    State.followOn { s with table := s.table ++ [HostRequest.newEntry q] }
  else
    { s with responses := s.responses ++ [{ tag := q.tag, reason := .protocol, data := errorData q.op q.count }] }

/-! ## The events -/

/-- The host presents a request: it is taken when request ready is asserted, and stays with the host otherwise (R151,
R153). -/
def execUpstreamRequest (q : HostRequest) (s : State) : Out :=
  .next (if s.requestReady then s.takeRequest q else s)

/-- A WAIT_ORDER entry starts once the same-line order lets it (R155, R156). -/
def execEntryStart (tag : HostTag) (s : State) : Out :=
  .next (s.unlessReset fun s =>
    match s.entry tag with
    | some e => if s.mayStart e then (s.startEntry e).followOn else s
    | none => s)

/-- The memory accepts a transfer: the arbiter issues one waiting request (R164 to R166). -/
def execDownstreamIssue (s : State) : Out := .next (s.unlessReset State.issueNext)

/-- The memory presents a response on a tag (R167, R169). -/
def execDownstreamResponse (tag : DownTag) (ok : Bool) (data : Line) (s : State) : Out :=
  .next (s.unlessReset fun s => s.respond tag ok data)

/-- A tag's response timer expires (R168, R170). -/
def execResponseTimeout (tag : DownTag) (s : State) : Out := .next (s.unlessReset fun s => s.timeout tag)

end Sys2Proof.Machine
end

