-- ==== Sys2Proof/Machine/Steps.lean ====
section
/-! DEFINITION. The steps the part's blocks take by themselves once their conditions hold: each acts when they do, and
leaves the state as it stands when they do not. Those that their rules place on the event that brings the conditions
about (R85, R86, R130, R144, R155) are `State.followOn` of that event too. -/

namespace Sys2Proof.Machine

/-! ## A commit's drain (R20) -/

/-- The drain set of a commit is empty and its record phase has not begun (R20). -/
def State.commitDrained (s : State) (r : RegionId) : Bool :=
  s.device == .run && (s.region r).txn == .committing && (s.region r).drain.isEmpty && !(s.region r).recordPhase

/-- A commit moves to its record phase (R20): it completes at once with no record, or its COMMIT record becomes due
(R65). -/
def State.commitPhase (s : State) (r : RegionId) : State :=
  let x := s.region r
  if x.records = 0 then s.completeCommit r
  else
    let c : ClosingRequest :=
      { region := r, number := x.number, kind := .commit, firstIndex := x.firstIndex.getD 0, recovery := false }
    (s.updRegion r fun x => { x with recordPhase := true }).updWriter fun w => { w with closing := w.closing ++ [c] }

/-! ## FORMAT (R57) -/

/-- The first FORMAT anchor write begins when every entry FORMAT waits for is DONE (R57). -/
def State.beginFormatAnchors (s : State) : State :=
  if s.device = .formatting ∧ s.log.formatPending = true ∧ s.log.formatDrain = [] then
    (s.updLog fun l => { l with formatPending := false }).startAnchor .formatFirst
  else s

/-! ## The steps -/

/-- The idle builder chooses its next work (R66). -/
def execChooseNextWork (s : State) : Out :=
  .next (s.unlessReset fun s => if s.working && s.writer.builder.isNone then s.chooseWork.followOn else s)

/-- The last write of a commit's drain set is DONE (R20). -/
def execCommitDrainComplete (r : RegionId) (s : State) : Out :=
  .next (s.unlessReset fun s => if s.commitDrained r then (s.commitPhase r).followOn else s)

/-- The walk of the head region starts (R85). -/
def execWalkStart (s : State) : Out := .next (s.unlessReset State.nextWalk)

/-- A walk's drain is over (R86). -/
def execWalkDrainComplete (s : State) : Out := .next (s.unlessReset State.passDrain)

/-- The FORMAT anchor writes begin (R57). -/
def execFormatAnchorWrites (s : State) : Out := .next (s.unlessReset State.beginFormatAnchors)

/-- Recovery ends (R134). -/
def execRecoveryEnd (s : State) : Out := .next (s.unlessReset State.passRecovery)

/-- SETTLING ends (R144, R145). -/
def execSettlingEnd (s : State) : Out :=
  .next (s.unlessReset State.passSettling)

end Sys2Proof.Machine
end

