-- ==== Sys2Proof/Machine/Dispatch.lean ====
section
/-! DEFINITION. The meaning of every command: one arm for each constructor of Instr. -/

namespace Sys2Proof.Machine

/-- The effect of a command on everything but the queue. -/
def exec (i : Instr) (s : State) : Host.Outcome State Fault Refusal :=
  match i with
  | .ident => Sys2Proof.Machine.execIdent s
  | .readStatus => Sys2Proof.Machine.execReadStatus s
  | .readLog => Sys2Proof.Machine.execReadLog s
  | .readRegion region => Sys2Proof.Machine.execReadRegion region s
  | .readParam param => Sys2Proof.Machine.execReadParam param s
  | .readPending => Sys2Proof.Machine.execReadPending s
  | .readFault => Sys2Proof.Machine.execReadFault s
  | .claim => Sys2Proof.Machine.execClaim s
  | .stage region field value => Sys2Proof.Machine.execStage region field value s
  | .applyNow region => Sys2Proof.Machine.execApplyNow region s
  | .applyAtClose region => Sys2Proof.Machine.execApplyAtClose region s
  | .applyAtBegin region => Sys2Proof.Machine.execApplyAtBegin region s
  | .applyCancel region => Sys2Proof.Machine.execApplyCancel region s
  | .beginTxn region => Sys2Proof.Machine.execBegin region s
  | .commit region => Sys2Proof.Machine.execCommit region s
  | .abort region => Sys2Proof.Machine.execAbort region s
  | .retry region => Sys2Proof.Machine.execRetry region s
  | .format base units => Sys2Proof.Machine.execFormat base units s
  | .setParam param value => Sys2Proof.Machine.execSetParam param value s
  | .setPriority source priority => Sys2Proof.Machine.execSetPriority source priority s
  | .setThreshold threshold => Sys2Proof.Machine.execSetThreshold threshold s
  | .popFault => Sys2Proof.Machine.execPopFault s
  | .dportClear => Sys2Proof.Machine.execDportClear s
  | .unknownCommand code operands => Sys2Proof.Machine.execUnknownCommand code operands s
  | .frameDiscard received => Sys2Proof.Machine.execFrameDiscard received s
  | .resetAssert => Sys2Proof.Machine.execResetAssert s
  | .resetRelease msize selected => Sys2Proof.Machine.execResetRelease msize selected s
  | .firstIssueDelayExpiry => Sys2Proof.Machine.execFirstIssueDelayExpiry s
  | .powerFailWarning => Sys2Proof.Machine.execPowerFailWarning s
  | .upstreamRequest request => Sys2Proof.Machine.execUpstreamRequest request s
  | .entryStart tag => Sys2Proof.Machine.execEntryStart tag s
  | .downstreamIssue => Sys2Proof.Machine.execDownstreamIssue s
  | .downstreamResponse tag ok data => Sys2Proof.Machine.execDownstreamResponse tag ok data s
  | .responseTimeout tag => Sys2Proof.Machine.execResponseTimeout tag s
  | .tick => Sys2Proof.Machine.execTick s
  | .ageExpiry region => Sys2Proof.Machine.execAgeExpiry region s
  | .chooseNextWork => Sys2Proof.Machine.execChooseNextWork s
  | .commitDrainComplete region => Sys2Proof.Machine.execCommitDrainComplete region s
  | .walkStart => Sys2Proof.Machine.execWalkStart s
  | .walkDrainComplete => Sys2Proof.Machine.execWalkDrainComplete s
  | .formatAnchorWrites => Sys2Proof.Machine.execFormatAnchorWrites s
  | .recoveryEnd => Sys2Proof.Machine.execRecoveryEnd s
  | .settlingEnd => Sys2Proof.Machine.execSettlingEnd s
  | .frameEnd => Sys2Proof.Machine.execFrameEnd s

end Sys2Proof.Machine
end

