-- ==== Sys2Proof/Machine/LinkWire.lean ====
section
/-! DEFINITION. The management link bit by bit (R182, R183): the assertion of SCS_N, the rising edges of SCK with SDI, and
SDO between them. The command table has one row for a whole command, so these are the link's workings between rows: a
command's row is what clocking its frame's bytes does (`Obligations.FrameCarriesOneCommandAndItsResult`). -/

namespace Sys2Proof.Machine

/-- The frame as it begins: nothing received, nothing clocked (R182). -/
def Frame.begun : Frame := { received := [], bits := [], edges := 0, answer := none }

/-- SCS_N is asserted: a frame begins, unless RESET_N is asserted or the link ignores a left-over assertion (R182,
R187). -/
def State.selectLink (s : State) : State := if s.linkFree then s.holdFrame .begun else s

/-- The bits of a byte, most significant first (R182). -/
def byteBits (b : Byte) : List Bool := (List.range 8).map fun i => b.getMsbD i

/-- The byte that eight bits spell, most significant first (R182). -/
def bitsByte (bits : List Bool) : Byte := bits.foldl (fun b x => b.shiftConcat x) 0

/-- A rising edge of SCK with the level of SDI, in frame `f` (R182, R183). The edge that completes a byte receives it, and
takes the command when the bytes received are a command's last; once the command is taken SDI is ignored. -/
def State.clockFrame (s : State) (f : Frame) (sdi : Bool) : Out :=
  let f := { f with edges := f.edges + 1 }
  if f.answer.isSome then .next (s.holdFrame f)
  else
    let bits := f.bits ++ [sdi]
    if bits.length < 8 then .next (s.holdFrame { f with bits := bits })
    else
      let received := f.received ++ [bitsByte bits]
      match decodeFrame received with
      | some c => exec c { s with link := { s.link with frame := none } }
      | none => .next (s.holdFrame { f with received := received, bits := [] })

/-- A rising edge of SCK with the level of SDI: ignored without a frame and in reset (R182, R187). -/
def State.clockLink (s : State) (sdi : Bool) : Out :=
  match s.inReset, s.link.frame with
  | false, some f => s.clockFrame f sdi
  | _, _ => .next s

/-- The levels of SDI at successive rising edges of SCK. -/
def State.clockBits (s : State) : List Bool → Out
  | [] => .next s
  | b :: rest =>
    match s.clockLink b with
    | .next t => t.clockBits rest
    | other => other

/-- The level SDO has for the next rising edge of SCK, set on the falling edge before it: the bit of the byte at the frame's
position, most significant first; and none while SDO is not driven (R182, R197). -/
def State.sdoLevel (s : State) : Option Bool :=
  if s.inReset then none else s.link.frame.map fun f => (f.sdo (f.edges / 8)).getMsbD (f.edges % 8)

end Sys2Proof.Machine
end

