-- ==== Sys2Proof/Safety.lean ====
section
/-! DEFINITION. What claims about the part are stated with: the answer to a link command, the fields of result data, and
the laws that hold of every state the part comes to. -/

namespace Sys2Proof.Machine

/-! ## Answers on the management link -/

/-- A link command is taken with a result and result data (R183): the part becomes `t`, but for the link, which holds the
command's frame. -/
def Takes (c : Instr) (s : State) (result : ResultCode) (data : List Byte) (t : State) : Prop :=
  exec c s = .next { t with link := { t.link with frame := some (.taken c result data) } }

/-- The link takes a command's frame: RESET_N is not asserted, no assertion of SCS_N left over from reset is ignored, and
no frame is held (R182, R183, R187). -/
def LinkReady (s : State) : Prop := s.inReset = false ∧ s.link.ignoring = false ∧ s.link.frame = none

/-- The device states in which the link hands on every known command (R186). -/
def Serving (s : State) : Prop := s.device = .run ∨ s.device = .nolog ∨ s.device = .logFault

/-- The field of `len` bytes at byte `pos` of result data, most significant byte first (R193). -/
def field (data : List Byte) (pos len : Nat) : Nat := beNumber ((data.drop pos).take len)

/-- The commands Table 11-3 refuses outside RUN, NOLOG and LOG_FAULT, each with its number of result data bytes. -/
def gatedLength : Instr → Option Nat
  | .readRegion _ => some 46
  | .stage _ _ _ | .applyNow _ | .applyAtClose _ | .applyAtBegin _ | .applyCancel _ | .beginTxn _ | .commit _ | .abort _
  | .retry _ | .format _ _ | .setParam _ _ | .setPriority _ _ | .setThreshold _ | .popFault | .dportClear => some 0
  | _ => none

/-- The commands whose operand is a region number, with that operand's byte and their number of result data bytes. -/
def regionOperand : Instr → Option (Byte × Nat)
  | .readRegion r => some (r, 46)
  | .stage r _ _ | .applyNow r | .applyAtClose r | .applyAtBegin r | .applyCancel r | .beginTxn r | .commit r | .abort r
  | .retry r => some (r, 0)
  | _ => none

/-- A source signals: its flag is yes and its priority is greater than the threshold (R176). -/
def Signalling (s : State) (n : Source) : Prop := s.flag n = true ∧ s.notices.threshold < s.notices.priority.get n

/-- An optional index or address as a result field of four bytes shows it: all ones when there is none (R193). -/
def indexShown (x : Option Nat) : Nat :=
  match x with
  | some i => i % 2 ^ 32
  | none => 0xFFFFFFFF

/-- A descriptor's fields stand at byte `pos` of result data (Table 11-7). -/
structure DescriptorShown (data : List Byte) (pos : Nat) (d : Descriptor) : Prop where
  enable : field data pos 1 = if d.enable then 1 else 0
  base : field data (pos + 1) 3 = d.base
  size : field data (pos + 4) 2 = d.size - 1
  outside : field data (pos + 6) 1 = d.outside.code
  space : field data (pos + 7) 1 = d.space.code
  ageLimit : field data (pos + 8) 2 = d.ageLimit
  ageAction : field data (pos + 10) 1 = d.ageAction.code

/-! ## What an event leaves alone -/

/-- The parts of the state that a statement names as changed. Drain sets are a part of their own, since an answered request
leaves every drain set. -/
inductive Part where
  | device
  | powerFail
  | issueAllowed
  | regions
  | drains
  | directory
  | log
  | writer
  | engine
  | startup
  | faults
  | notices
  | table
  | dport
  | params
  | timebase
  | link
  | responses
  | issued
deriving DecidableEq, Repr

/-- A part is the same in two states. -/
def Part.same (s t : State) : Part → Prop
  | .device => t.device = s.device
  | .powerFail => t.powerFail = s.powerFail
  | .issueAllowed => t.issueAllowed = s.issueAllowed
  | .regions => ∀ r, { t.region r with drain := [] } = { s.region r with drain := [] }
  | .drains => (∀ r, (t.region r).drain = (s.region r).drain) ∧ t.engine.drain = s.engine.drain ∧
      t.log.formatDrain = s.log.formatDrain
  | .directory => t.directory = s.directory
  | .log => { t.log with formatDrain := [] } = { s.log with formatDrain := [] }
  | .writer => t.writer = s.writer
  | .engine => { t.engine with drain := [] } = { s.engine with drain := [] }
  | .startup => t.startup = s.startup
  | .faults => t.faults = s.faults
  | .notices => t.notices = s.notices
  | .table => t.table = s.table
  | .dport => t.dport = s.dport
  | .params => t.params = s.params
  | .timebase => t.timebase = s.timebase
  | .link => t.link = s.link
  | .responses => t.responses = s.responses
  | .issued => t.issued = s.issued

/-- Every part but those named is the same, as are the command queue, RESET_N and the memory size. -/
def Keeps (changed : List Part) (s t : State) : Prop :=
  (∀ p, p ∉ changed → p.same s t) ∧ t.pending = s.pending ∧ t.inReset = s.inReset ∧ t.msize = s.msize

/-- Every region but `r` keeps its context, but for the drain set. -/
def OtherRegions (r : RegionId) (s t : State) : Prop :=
  ∀ q, q ≠ r → { t.region q with drain := [] } = { s.region q with drain := [] }

/-! ## Windows and requests -/

/-- Region `r`'s staged descriptor passes the checks of R5: it is disabled, or its window ends below the anchor blocks and
shares no byte with the log area or with the live window of another enabled region. -/
def PassesChecks (s : State) (r : RegionId) : Prop :=
  (s.region r).staged.enable = true →
    (s.region r).staged.base + 32 * (s.region r).staged.size ≤ s.memorySize - 64 ∧
    (∀ g, s.log.geometry = some g → ∀ addr, ¬((s.region r).staged.holds addr = true ∧ g.holds addr = true)) ∧
    ∀ q, q ≠ r → (s.region q).live.enable = true →
      ∀ addr, ¬((s.region r).staged.holds addr = true ∧ (s.region q).live.holds addr = true)

/-- The region context at the start of a transaction (R15). -/
def Region.begun (x : Region) : Region :=
  { x with txn := .opened, records := 0, firstIndex := none, lastIndex := none, saturated := false, age := 0,
           sub := .none, drain := [], recordPhase := false, expiryDue := false }

/-- The response that answers an entry ERR with a reason: zeros for a READ, no data for a WRITE (R149). -/
def Entry.errResponse (e : Entry) (reason : Reason) : Response :=
  { tag := e.tag, reason := reason, data := if e.op = .read then List.replicate e.count 0 else [] }

/-- A request is well formed (R148): a word address in memory, 1 to 8 words, all in one line. -/
def WellFormedRequest (s : State) (q : HostRequest) : Prop :=
  q.addr.toNat % 4 = 0 ∧ q.addr.toNat < s.memorySize ∧ 1 ≤ q.count ∧ q.count ≤ 8 ∧ q.addr.toNat % 32 + 4 * q.count ≤ 32

/-- The entry `e` stands in the table between the older entries `pre` and the younger `post`. -/
def Stands (s : State) (pre : List Entry) (e : Entry) (post : List Entry) : Prop := s.table = pre ++ e :: post

/-- An address is the log's own: in an anchor block, or in the log area (R3, step 1). -/
def LogAddress (s : State) (addr : Nat) : Prop :=
  s.memorySize - 64 ≤ addr ∧ addr < s.memorySize ∨ ∃ g, s.log.geometry = some g ∧ g.holds addr = true

/-- An address belongs to region `r`: it is not the log's, and `r` is the lowest-numbered enabled region whose live window
holds it (R3, step 2). -/
def RegionAddress (s : State) (addr : Nat) (r : RegionId) : Prop :=
  ¬LogAddress s addr ∧ (s.region r).live.enable = true ∧ (s.region r).live.holds addr = true ∧
    ∀ q, q < r → ¬((s.region q).live.enable = true ∧ (s.region q).live.holds addr = true)

/-- The Line Directory holds a DURABLE entry of region `r` for the line of an address (R58). -/
def Captured (s : State) (r : RegionId) (addr : Nat) : Prop :=
  ∃ d ∈ s.directory, d.region = r ∧ d.line = lineOf addr ∧ d.durable = true

/-- A host request waits for issue. -/
def HostWaits (s : State) : Prop := ∃ e ∈ s.table, e.state = .ready

/-- The lowest-numbered FREE tag (R166). -/
def LowestFree (s : State) (g : DownTag) : Prop := s.tag g = .free ∧ ∀ g', g' < g → s.tag g' ≠ .free

/-- The request the arbiter takes from a class queue (R164): unless the share is spent and a host request waits, the head of
the first queue that holds one, in the order anchor, log writer, rollback. -/
def ChosenFromQueue (s : State) (cls : IssueClass) (q : DownRequest) : Prop :=
  ¬(s.dport.share = 4 ∧ HostWaits s) ∧
    match cls with
    | .anchor => s.dport.anchorQueue.head? = some q
    | .logWriter => s.dport.anchorQueue = [] ∧ s.dport.logQueue.head? = some q
    | .rollback => s.dport.anchorQueue = [] ∧ s.dport.logQueue = [] ∧ s.dport.rollQueue.head? = some q
    | .host => False

/-- The conditions on which the arbiter may issue, a request and a tag apart (R164). -/
def MayIssue (s : State) : Prop := s.inReset = false ∧ s.issueAllowed = true ∧ s.device ≠ .halted

/-- The fault of a host request that ended ERR or timed out (R82, R106, R115). -/
def MediaFault (e : Entry) (f : FaultEntry) : Prop :=
  f = ⟨if e.handling = some .inPlace then .dataWrite else .passMedia, (match e.cls with
    | some (.region r) => some r
    | _ => none), some e.addr, none, 1, false⟩

/-- An entry's response to an OK completion: the words read for a READ, no data for a WRITE (R149, R158). -/
def Entry.okResponse (e : Entry) (d : Line) : Response :=
  { tag := e.tag, reason := .none,
    data := if e.op = .read then (List.range e.count).map fun i => d.extractLsb' (32 * i) 32 else [] }

/-- An anchor write started from `s` (R52): the snapshot of the volatile tail and tail sequence goes with the next anchor
sequence to the slot that is not current, slot 0 when none is, and its one block is handed to the anchor class. -/
def AnchorStarted (s t : State) (purpose : AnchorPurpose) (g : Geometry) : Prop :=
  ∃ a : AnchorWrite, t.log.anchor = some a ∧ a.purpose = purpose ∧
    (s.log.slot = none → a.slot = 0) ∧ (∀ i, s.log.slot = some i → a.slot ≠ i) ∧
    a.sequence = s.log.anchorSeq + 1 ∧ a.tail = s.log.volatileTail ∧ a.tailSeq = s.log.tailSeq ∧ a.unit.attempts = 1 ∧
    t.dport.anchorQueue = s.dport.anchorQueue ++
      [writeBlock .logManager (s.memorySize - 64 + 32 * a.slot.val)
        (anchorBlock a.sequence g s.log.generation a.tail a.tailSeq)]

/-- Where R40 places a record of `size` blocks at head `head` of a ring of `n` blocks, `seq` being the next record
sequence: its ring index and sequence, the WRAP marker's index and sequence if one goes first, and the head and next record
sequence it leaves. -/
structure PlacedAt (n head : Nat) (seq : Word32) (size index : Nat) (own : Word32) (marker : Option (Nat × Word32))
    (head' : Nat) (seq' : Word32) : Prop where
  fits : head + size ≤ n → index = head ∧ own = seq ∧ marker = none ∧ head' = (if head + size = n then 0 else head + size) ∧
    seq' = seq + 1
  wraps : n < head + size → index = 0 ∧ own = seq + 1 ∧ marker = some (head, seq) ∧ head' = size ∧ seq' = seq + 2

/-- A walk of the region at the head of the rollback queue may start (R85). -/
def WalkMayStart (s : State) : Prop :=
  s.inReset = false ∧ (s.device = .run ∨ s.device = .restoring) ∧ s.engine.walk = none

/-- What keeps a walk of region `r` in DRAINING (R86): an entry of its drain set, or a QUARANTINED tag in the live window of
the enabled region. -/
def WindowQuarantined (s : State) (r : RegionId) : Prop :=
  (s.region r).live.enable = true ∧ ∃ g a, s.tag g = .quarantined a ∧ (s.region r).live.holds a = true

/-- The two header reads of the record at ring index `x` are handed to the rollback class (R88). -/
def HeaderReadsHanded (s t : State) (x : Nat) : Prop :=
  t.dport.rollQueue = s.dport.rollQueue ++
    [readBlock .rollback (s.blockAddr (x % s.log.ring)), readBlock .rollback (s.blockAddr ((x + 1) % s.log.ring))]

/-- SETTLING has ended (R144): every entry is DONE, no request is outstanding or still to be issued, the builder is IDLE and
no anchor write is in progress. -/
def Settled (s : State) : Prop :=
  s.table = [] ∧ (∀ g, (s.tag g).isOutstanding = false) ∧ s.writer.builder = none ∧ s.log.anchor = none ∧
    s.dport.anchorQueue = [] ∧ s.dport.logQueue = [] ∧ s.dport.rollQueue = []

/-! ## What follows on an event -/

/-- No older entry is for an entry's line, and no QUARANTINED tag holds an address in it (R155). -/
def LineClear (s : State) (older : List Entry) (e : Entry) : Prop :=
  (∀ x ∈ older, lineOf x.addr ≠ lineOf e.addr) ∧ ∀ g a, s.tag g = .quarantined a → lineOf a ≠ lineOf e.addr

/-- Among the entries `es`, the oldest of the table, none may start (R155). -/
def NoneStarts (s : State) (es : List Entry) : Prop :=
  ∀ older e younger, es = older ++ e :: younger → e.state = .waitOrder → ¬LineClear s older e

/-- Nothing is left that the rules place on the event which brings it about: the start of an entry (R155), of a walk (R85)
or of a walk's reading (R86), the recovery anchor (R130, R134) and the end of SETTLING (R144). -/
structure NothingDue (s : State) : Prop where
  starts : NoneStarts s s.table
  walks : s.device = .run ∨ s.device = .restoring → s.engine.walk = none → s.engine.queue = []
  drains : ∀ r, s.engine.walk = some r → s.device = .run ∨ s.device = .restoring → (s.region r).txn = .rollingBack →
    (s.region r).sub = .draining → s.engine.drain ≠ [] ∨ WindowQuarantined s r
  recovery : s.inReset = false → s.device = .restoring → s.engine.queue = [] → s.engine.walk = none →
    s.log.geometry ≠ none → ∃ a, s.log.anchor = some a ∧ (a.purpose = .recovery ∨ s.log.recoveryWanted = true)
  settling : s.inReset = false → s.device = .quiescing → s.powerFail.phase = .settling → ¬Settled s

/-! ## Refused groups (R75 to R78) -/

/-- The transaction's own first record is at the volatile tail (R50). -/
def Pinned (s : State) (r : RegionId) : Prop :=
  (s.region r).records ≠ 0 ∧ (s.region r).firstIndex = some s.log.volatileTail

/-- A group refused with no anchor that could reclaim space is handled by its region's SPACE policy while the region is OPEN,
and as under FAIL in COMMITTING (R19, R75 to R78). `directory` is the Line Directory with the group's PENDING entries; the
parts `also` are what the event changes besides. -/
structure GroupRefused (s t : State) (r : RegionId) (grp : Group) (directory : List DirEntry) (also : List Part) : Prop where
  waits : (s.region r).txn = .opened → (s.region r).live.space = .wait → ¬Pinned s r →
    t.writer.held.get r = some ⟨grp, false⟩ ∧ t.directory = directory ∧ t.table = s.table.map (fun e =>
      if e.tag ∈ grp.members ∧ (e.state = .waitLog ∨ e.state = .waitSpace) then { e with state := .waitSpace } else e) ∧
    (t.region r).txn = .opened ∧ Keeps ([.writer, .log, .table] ++ also) s t
  fails : (s.region r).txn = .committing ∨ (s.region r).txn = .opened ∧
      ((s.region r).live.space = .fail ∨ (s.region r).live.space = .wait ∧ Pinned s r) →
    t.table = s.table.filter (fun e => !grp.members.contains e.tag) ∧
    t.responses = s.responses ++
      (s.table.filter fun e => grp.members.contains e.tag).map (fun e => e.errResponse .noSpace) ∧
    t.writer.held.get r = none ∧ (t.region r).txn = (s.region r).txn ∧ (t.region r).records = (s.region r).records ∧
    t.directory = directory.filter (fun d => !(d.region == r && !d.durable && grp.tracked.contains d.line)) ∧
    Keeps ([.writer, .log, .table, .directory, .drains, .responses] ++ also) s t
  aborts : (s.region r).txn = .opened → (s.region r).live.space = .abort →
    (∀ e ∈ s.table, grp.members.contains e.tag = true → e.errResponse .aborted ∈ t.responses) ∧
    (∀ e ∈ t.table, grp.members.contains e.tag = false) ∧ t.writer.held.get r = none ∧ OtherRegions r s t ∧
    (∀ d ∈ t.directory, d.region ≠ r) ∧
    ((s.region r).records = 0 → s.hasBusyGroup r = false → (t.region r).txn = .idle ∧ t.flag (rollbackDone r) = true ∧
      t.engine.queue = s.engine.queue) ∧
    ((s.region r).records ≠ 0 ∨ s.hasBusyGroup r = true → (t.region r).txn = .rollingBack ∧ (t.region r).sub = .queued ∧
      t.engine.queue = s.engine.queue ++ [r]) ∧
    Keeps ([.regions, .drains, .directory, .log, .writer, .engine, .faults, .notices, .table, .responses] ++ also) s t
  writer : t.writer.builder = s.writer.builder ∧ t.writer.granted = s.writer.granted ∧
    t.writer.closing = s.writer.closing ∧ t.writer.deferred = none ∧ t.log.deferred = none

/-! ## Resolution (R43, R44) -/

/-- Region `q`'s transaction is unresolved, with its first record at an index and under a sequence (R43). -/
def FirstRecord (s : State) (q : RegionId) (index : Nat) (seq : Word32) : Prop :=
  s.log.firstSeqs.get q = some seq ∧ (s.region q).firstIndex = some index

/-- Region `r`'s transaction is resolved in a ring of `n` blocks: U falls, the volatile tail goes to the ring-earliest first
record left, or to the head, and when it moves every HELD group is retry-due and the stride condition is tested (R43, R44,
R50, R53). -/
structure Resolved (n : Nat) (s t : State) (r : RegionId) : Prop where
  unresolved : t.log.unresolved = s.log.unresolved - 1
  firstSeqs : ∀ q, t.log.firstSeqs.get q = if q = r then none else s.log.firstSeqs.get q
  noneLeft : (∀ q i seq, q ≠ r → ¬FirstRecord s q i seq) →
    t.log.volatileTail = s.log.head ∧ t.log.tailSeq = s.log.nextSeq
  earliest : ∀ q i seq, q ≠ r → FirstRecord s q i seq → ∃ q' i' seq', q' ≠ r ∧ FirstRecord s q' i' seq' ∧
    t.log.volatileTail = i' ∧ t.log.tailSeq = seq' ∧
    ringDistance n s.log.durableTail i' ≤ ringDistance n s.log.durableTail i
  still : t.log.volatileTail = s.log.volatileTail → t.writer.held = s.writer.held ∧ t.log.anchor = s.log.anchor ∧
    t.log.anchorWanted = s.log.anchorWanted
  moved : t.log.volatileTail ≠ s.log.volatileTail →
    (∀ q, t.writer.held.get q = (s.writer.held.get q).map fun h => { h with retryDue := true }) ∧
    let d := ringDistance n s.log.durableTail t.log.volatileTail
    (d = 0 ∨ d < s.params.anchorStride → t.log.anchor = s.log.anchor ∧ t.log.anchorWanted = s.log.anchorWanted) ∧
    (0 < d → s.params.anchorStride ≤ d →
      (∀ a, s.log.anchor = some a → t.log.anchor = some a ∧ t.log.anchorWanted = true) ∧
      (s.log.anchor = none → ∃ a, t.log.anchor = some a ∧ a.purpose = .reclaim ∧ a.sequence = s.log.anchorSeq + 1 ∧
        a.tail = t.log.volatileTail ∧ a.tailSeq = t.log.tailSeq ∧ t.log.anchorWanted = s.log.anchorWanted))
  stands : t.log.head = s.log.head ∧ t.log.nextSeq = s.log.nextSeq ∧ t.log.durableTail = s.log.durableTail ∧
    t.log.slot = s.log.slot ∧ t.log.anchorSeq = s.log.anchorSeq ∧ t.log.geometry = s.log.geometry

/-! ## Anchor writes -/

/-- The response `d` on tag `g` is the last read-back of the anchor write `a`, and finds it as written (R52, R102). -/
def VerifiesAnchor (s : State) (g : DownTag) (d : Line) (a : AnchorWrite) : Prop :=
  s.log.anchor = some a ∧ a.unit.readBack = true ∧ a.unit.left = 1 ∧ a.unit.failed = false ∧
    ∃ addr cls op timer at_, s.tag g = .outstanding .logManager cls op addr timer at_ true ∧ (addr, d) ∈ a.unit.blocks

/-- An ERR response on tag `g` is the last outcome of an attempt on the anchor write `a` (R52, R102). -/
def FailsAnchor (s : State) (g : DownTag) (a : AnchorWrite) : Prop :=
  s.log.anchor = some a ∧ a.unit.left = 1 ∧
    ∃ addr cls op timer at_, s.tag g = .outstanding .logManager cls op addr timer at_ true

/-- The log once an anchor write is verified: its slot is current with its sequence, and the durable tail is its snapshot
(R52). -/
def State.anchored (s : State) (a : AnchorWrite) : State :=
  { s with log := { s.log with slot := some a.slot, anchorSeq := a.sequence, durableTail := a.tail, anchor := none } }

/-! ## Walks and the scan -/

/-- The header read at ring index `x` passes every test of Table 4-2 but the data CRC, for the walk of region `r`. -/
structure PassesCheck (s : State) (r : RegionId) (x : Nat) (h : Header) : Prop where
  crc : h.crcGood = true
  identity : h.kind = 1 ∧ h.region = r.val ∧ h.number = (s.region r).number
  generation : h.generation = s.log.generation
  fit : 1 ≤ h.count ∧ h.count ≤ 8 ∧ x + 2 + h.count ≤ s.log.ring
  lines : (∀ a ∈ h.lines, a % 32 = 0 ∧ a < s.memorySize - 64 ∧ ∀ g, s.log.geometry = some g → g.holds a = false) ∧
    h.lines.Nodup
  chain : (s.region r).firstIndex = some h.firstIndex
  first : x = h.firstIndex → h.first = true ∧ h.previous = 0xFFFFFFFF
  later : x ≠ h.firstIndex → h.first = false ∧ h.previous < s.log.ring
  count : s.engine.walked < (s.region r).records

/-- The walk of region `r` has failed with fault `f` (R95, R96): the region is FAULTED with its records kept, and the engine
is IDLE. -/
structure WalkFailed (s t : State) (r : RegionId) (f : FaultEntry) : Prop where
  region : (t.region r).txn = .faulted ∧ (t.region r).sub = .none ∧ (t.region r).records = (s.region r).records ∧
    (t.region r).firstIndex = (s.region r).firstIndex ∧ (t.region r).lastIndex = (s.region r).lastIndex
  fault : t.faults = pushEntry s.faults f ∧ t.flag faultSource = true
  directory : t.directory = s.directory.filter (fun d => d.region ≠ r)
  table : ∀ e ∈ t.table, e.cls = some (.region r) → e.state ≠ .waitRegion
  engine : t.engine.walk = none ∧ t.engine.queue = s.engine.queue
  others : OtherRegions r s t
  kept : Keeps [.regions, .drains, .directory, .engine, .dport, .faults, .notices, .table, .responses] s t

/-- A WRAP marker at scan position `p` passes the tests of Table 6-4. -/
def WrapPasses (s : State) (p : Nat) (b : Line) : Prop :=
  crc32 28 (fieldAt b.toNat 0 28) = BitVec.ofNat 32 (fieldAt b.toNat 28 4) ∧
    BitVec.ofNat 32 (fieldAt b.toNat 4 4) = s.startup.expected ∧
    BitVec.ofNat 32 (fieldAt b.toNat 8 4) = s.log.generation ∧
    p < s.log.ring ∧ s.log.ring ≤ p + 9 ∧ s.startup.distance + (s.log.ring - p) + 1 ≤ s.log.ring

/-- A record header at scan position `p` passes the tests of Table 6-4 but the data CRC and the agreement. -/
structure HeaderPasses (s : State) (p : Nat) (h : Header) : Prop where
  crc : h.crcGood = true
  sequence : h.sequence = s.startup.expected ∧ h.generation = s.log.generation
  identity : h.region < 8
  count : h.kind = 1 ∧ 1 ≤ h.count ∧ h.count ≤ 8 ∨ h.kind ≠ 1 ∧ h.count = 0
  fit : p + 2 + h.count ≤ s.log.ring ∧ s.startup.distance + 2 + h.count + 1 ≤ s.log.ring
  flags : (h.first = true → h.kind = 1) ∧ (h.recovery = true → h.kind = 3)
  undoFirst : h.kind = 1 → h.first = true → h.firstIndex = p ∧ h.previous = 0xFFFFFFFF
  undoLater : h.kind = 1 → h.first = false → h.firstIndex < s.log.ring ∧ h.previous < s.log.ring
  closing : h.kind ≠ 1 → h.previous = 0xFFFFFFFF ∧ h.firstIndex < s.log.ring ∧ h.dataCrc = 0

/-- A record at scan position `p` agrees with its region's tracker `x`, which becomes `y` (Table 6-5). -/
inductive Agrees (p : Nat) (h : Header) : Tracker → Tracker → Prop where
  | opens (seen : Option Word32) : h.kind = 1 → h.first = true →
      Agrees p h ⟨seen, none⟩ ⟨some h.number, some ⟨h.number, p, h.sequence, p, 1⟩⟩
  | continues (seen : Option Word32) (c : Candidate) : h.kind = 1 → h.first = false → h.number = c.number →
      h.previous = c.lastIndex → h.firstIndex = c.firstIndex →
      Agrees p h ⟨seen, some c⟩ ⟨seen, some { c with lastIndex := p, records := c.records + 1 }⟩
  | closes (seen : Option Word32) (c : Candidate) : h.kind ≠ 1 → h.number = c.number → h.firstIndex = c.firstIndex →
      Agrees p h ⟨seen, some c⟩ ⟨some h.number, none⟩
  | follows (seen : Option Word32) : (h.kind = 1 → h.first = false) → Agrees p h ⟨seen, none⟩ ⟨some h.number, none⟩

/-- The scan has ended at a head, with the region trackers given (R127, R129, R130). -/
structure ScanEnded (s t : State) (head : Nat) (seq : Word32) (trackers : Vector Tracker 8) : Prop where
  device : t.device = .restoring
  positions : t.log.head = head ∧ t.log.nextSeq = seq
  unresolved : t.log.unresolved = allRegions.countP fun r => (trackers.get r).candidate.isSome
  firstSeqs : ∀ r, t.log.firstSeqs.get r = (trackers.get r).candidate.map Candidate.firstSeq
  empty : (∀ r, (trackers.get r).candidate = none) → t.log.volatileTail = head ∧ t.log.tailSeq = seq
  earliest : ∀ r c, (trackers.get r).candidate = some c → ∃ r' c', (trackers.get r').candidate = some c' ∧
    t.log.volatileTail = c'.firstIndex ∧ t.log.tailSeq = c'.firstSeq ∧
    ringDistance s.log.ring s.log.durableTail c'.firstIndex ≤ ringDistance s.log.ring s.log.durableTail c.firstIndex
  level : t.log.below = true ↔ t.log.free < s.params.spaceWatermark
  found : ∀ r c, (trackers.get r).candidate = some c → t.region r = { s.region r with
    txn := .rollingBack, sub := .queued, number := c.number, records := c.records, firstIndex := some c.firstIndex,
    lastIndex := some c.lastIndex, saturated := false, age := 0 }
  absent : ∀ r, (trackers.get r).candidate = none → t.region r = { s.region r with
    txn := .idle, sub := .none, records := 0, firstIndex := none, lastIndex := none, saturated := false, age := 0,
    drain := [], recordPhase := false, expiryDue := false, number := match (trackers.get r).seen with
      | some n => if n = 0xFFFFFFFF then 1 else n + 1
      | none => 1 }
  queue : t.engine.queue = s.engine.queue ++ allRegions.filter fun r => (trackers.get r).candidate.isSome
  kept : Keeps [.device, .regions, .drains, .log, .engine, .startup, .dport] s t

/-- The scan goes on at a position under a distance and expected sequence (R123), or, when no record can fit there before the
durable tail, ends with that position as the head. -/
structure ScanAt (s t : State) (position distance : Nat) (expected : Word32) (trackers : Vector Tracker 8) : Prop where
  reads : distance + 1 ≠ s.log.ring → t.startup = { s.startup with
      position := position, expected := expected, distance := distance, trackers := trackers, blocks := [⟨1, none⟩] } ∧
    t.dport.rollQueue = s.dport.rollQueue ++ [readBlock .startup (s.blockAddr position)] ∧ Keeps [.startup, .dport] s t
  ends : distance + 1 = s.log.ring → ScanEnded s t position expected trackers

/-- A record of `size` blocks has been judged at the scan position (R125, R126): the scan goes on behind it when it agrees
with its region's tracker, and otherwise ends there. -/
structure RecordJudged (s t : State) (h : Header) (r : RegionId) (size : Nat) : Prop where
  agrees : ∀ y, Agrees s.startup.position h (s.startup.trackers.get r) y → ScanAt s t
    (if s.startup.position + size = s.log.ring then 0 else s.startup.position + size) (s.startup.distance + size)
    (s.startup.expected + 1) (s.startup.trackers.set r.val y)
  disagrees : (∀ y, ¬Agrees s.startup.position h (s.startup.trackers.get r) y) →
    ScanEnded s t s.startup.position s.startup.expected s.startup.trackers

/-- A response on tag `g` brings the last block asked for at the scan position, the blocks before it being in with contents
`before`, after `n` reads of it (R123). -/
def BringsScanBlock (s : State) (g : DownTag) (before : List Line) (n : Nat) : Prop :=
  s.inReset = false ∧ s.device = .scanning ∧
    (∃ pre, s.startup.blocks = pre ++ [⟨n, none⟩] ∧ pre.map BlockRead.contents = before.map some) ∧
    ∃ cls op timer at_, s.tag g =
      .outstanding .startup cls op (s.blockAddr (s.startup.position + before.length)) timer at_ true

/-- What the scan and the walks find of a record's header (Table 11-10), for a record with the given data CRC. -/
def LogRecord.shown (r : LogRecord) (crc : Word32) : Header :=
  { kind := r.kind.code, region := r.region.val, count := r.lines.length,
    flags := (if r.first then 1 else 0) + (if r.recovery then 2 else 0), sequence := r.sequence, number := r.number,
    previous := r.previous.getD 0xFFFFFFFF, addrs := r.lines ++ List.replicate (8 - r.lines.length) 0xFFFFFFFF,
    generation := r.generation, firstIndex := r.firstIndex, dataCrc := crc, crcGood := true }

/-! ## Value ranges -/

/-- A descriptor's fields lie in their ranges (Table 1-2). -/
structure Descriptor.InRange (memory : Nat) (d : Descriptor) : Prop where
  aligned : d.base % 32 = 0
  below : d.base < memory
  sized : 1 ≤ d.size
  sizeTop : d.size ≤ 65536
  ageTop : d.ageLimit ≤ 65535

/-- The parameters lie in their ranges (Table 11-5). -/
structure Params.InRange (p : Params) : Prop where
  tickLow : 1 ≤ p.tickPeriod
  tickTop : p.tickPeriod ≤ 1024
  retryTop : p.retryLimit ≤ 7
  strideTop : p.anchorStride ≤ 65535
  watermarkTop : p.spaceWatermark ≤ 65535
  dtoLow : 1 ≤ p.dto
  dtoTop : p.dto ≤ 255

/-- The part's queues, tables and settings lie in the ranges the manual states: the Fault Queue (R113), the Request Table
and its tags (R151, R152), the Line Directory (R60), the share count (R165), the age counts (Table 1-1), descriptors
(R2), priorities and threshold (R176), the parameters (R191), and the number 0, which names no source (R174). -/
structure InRange (s : State) : Prop where
  faults : s.faults.length ≤ 4
  table : s.table.length ≤ 16
  tags : (s.table.map Entry.tag).Nodup
  directory : s.directory.length ≤ 256
  share : s.dport.share ≤ 4
  ages : ∀ r, (s.region r).age ≤ 65535
  live : ∀ r, (s.region r).live.InRange s.memorySize
  staged : ∀ r, (s.region r).staged.InRange s.memorySize
  priorities : ∀ n : Source, s.notices.priority.get n ≤ 7
  threshold : s.notices.threshold ≤ 7
  noSource : s.flag 0 = false
  params : s.params.InRange

/-! ## Laws of the device -/

/-- The Power-Fail Controller agrees with the device state (R138, R144, R147, R189): the phase is NONE outside QUIESCING
and HALTED, SETTLING or ANCHORING in QUIESCING and HALTED in HALTED; SAFE is asserted in HALTED only, and there always but
while RESET_N is asserted. -/
structure PowerLaw (s : State) : Prop where
  quiescing : s.device = .quiescing → s.powerFail.phase = .settling ∨ s.powerFail.phase = .anchoring
  halted : s.device = .halted → s.powerFail.phase = .halted
  other : s.device ≠ .quiescing → s.device ≠ .halted → s.powerFail.phase = .none
  safeHalted : s.powerFail.safe = true → s.device = .halted
  haltedSafe : s.device = .halted → s.inReset = false → s.powerFail.safe = true

/-- The Line Directory holds entries only for regions in OPEN or COMMITTING, and none while start-up has yet to scan the
log (R60, R129). -/
structure DirectoryLaw (s : State) : Prop where
  running : ∀ d ∈ s.directory, (s.region d.region).txn = .opened ∨ (s.region d.region).txn = .committing
  startup : s.device = .start ∨ s.device = .scanning → s.directory = []

/-- The windows of the part (R5, R32): the log area lies at whole 4 KiB units, holds 256 to 65,536 blocks and ends below the
anchor blocks; the live window of an enabled region ends there too, and shares no byte with the log area or with another
enabled region's; and until the scan has ended no region is enabled, live or staged. -/
structure WindowLaw (s : State) : Prop where
  ring : ∀ g, s.log.geometry = some g → g.base % 4096 = 0 ∧ g.size % 4096 = 0 ∧ 256 ≤ g.blocks ∧ g.blocks ≤ 65536 ∧
    g.base + g.size ≤ s.memorySize - 64
  below : ∀ r, (s.region r).live.enable = true → (s.region r).live.base + 32 * (s.region r).live.size ≤ s.memorySize - 64
  area : ∀ r g, (s.region r).live.enable = true → s.log.geometry = some g →
    ∀ addr, ¬((s.region r).live.holds addr = true ∧ g.holds addr = true)
  apart : ∀ q r, q ≠ r → (s.region q).live.enable = true → (s.region r).live.enable = true →
    ∀ addr, ¬((s.region q).live.holds addr = true ∧ (s.region r).live.holds addr = true)
  startup : s.device = .start ∨ s.device = .scanning →
    ∀ r, (s.region r).live.enable = false ∧ (s.region r).staged.enable = false

/-- Same-line order (R155): of two entries for one line, the younger has not started. -/
def LineLaw (s : State) : Prop :=
  s.table.Pairwise fun older younger => lineOf older.addr = lineOf younger.addr → younger.state = .waitOrder

/-- The responses given and the entries still in the table that carry a host tag. -/
def accounted (s : State) (tag : HostTag) : Nat :=
  (s.responses.map Response.tag).count tag + (s.table.map Entry.tag).count tag

end Sys2Proof.Machine
end

