-- ==== Sys2Proof/Certificates/Slice0/Obligations.lean ====
section
/-! DEFINITION. Statements about the model for the provers, each `def Obligations.<Name> : Prop`. A statement that the
manual makes names its rule; the rest say what the model does where the manual leaves it open. -/

open Sys2Proof Sys2Proof.Machine

/-! ## The queue of commands -/

/-- A step takes the command at the front of the queue and is its `exec` with the queue's rest. -/
def Obligations.StepTakesTheFrontCommand : Prop :=
  ∀ (c : Instr) (rest : List Instr) (s : State),
    step { s with pending := c :: rest } = exec c { s with pending := rest }

/-- Every command and every event has an effect in every state, and none of them touches the queue of commands. That an
event whose conditions do not hold leaves the state as it stands is the model's reading (notes/assumptions/4.md). -/
def Obligations.EveryCommandIsAnsweredAndTheQueueStands : Prop :=
  ∀ (c : Instr) (s : State), ∃ t, exec c s = .next t ∧ t.pending = s.pending

/-- The bytes a management link frame carries for a command spell that command and no other (Table 11-4, R185,
R193). That an APPLY with an unknown point is a row of UNKNOWN_COMMAND is the model's reading (notes/assumptions/10.md). -/
def Obligations.LinkFrameSpellsItsCommand : Prop :=
  ∀ c : Instr, c.wf = true → frameBytes c ≠ [] → decodeFrame (frameBytes c) = some c

/-! ## Reset (R118) -/

/-- When reset ends every item has its value after reset, MSIZE is sampled, and both anchor slots are being read. The values
of the records of responses and issues, of SCS_N's left-over assertion and of the elapsed time, and the order of the two
slot reads, are the model's (notes/assumptions/19.md, 28.md, 33.md). -/
def Obligations.ResetReleaseGivesTheValuesAfterReset : Prop :=
  ∀ (msize : Fin 4) (selected : Bool) (s : State), ∃ t, exec (.resetRelease msize selected) s = .next t ∧
    t.pending = s.pending ∧ t.inReset = false ∧ t.msize = msize ∧ t.memorySize = 2 ^ (21 + msize.val) ∧
    t.device = .start ∧ t.powerFail = ⟨.none, none, false, false⟩ ∧ t.issueAllowed = false ∧
    (∀ r, t.region r = ⟨⟨false, 0, 1, .pass, .wait, 0, .notify⟩, ⟨false, 0, 1, .pass, .wait, 0, .notify⟩, .none, .idle, 1, 0,
      none, none, false, 0, .none, [], false, false⟩) ∧
    t.directory = [] ∧
    t.log = ⟨none, 0, 0, 0, 0, 0, 0, none, 0, 0, Vector.replicate 8 none, none, false, none, false, false, false, []⟩ ∧
    t.writer = ⟨none, [], none, none, Vector.replicate 8 none, 7⟩ ∧
    t.engine = ⟨[], none, false, [], none, none, [], [], none, 0, none⟩ ∧
    t.startup = ⟨Vector.replicate 2 ⟨1, .reading⟩, 0, 0, 0, [], Vector.replicate 8 ⟨none, none⟩⟩ ∧ t.faults = [] ∧
    t.notices = ⟨Vector.replicate 28 false, Vector.replicate 28 0, 0⟩ ∧ t.table = [] ∧
    (∀ g, t.tag g = .free) ∧ t.dport.share = 0 ∧ t.dport.logQueue = [] ∧ t.dport.rollQueue = [] ∧
    t.dport.anchorQueue = [readBlock .startup (t.memorySize - 64), readBlock .startup (t.memorySize - 32)] ∧
    t.params = ⟨100, 3, 256, 1024, 50⟩ ∧ t.timebase = ⟨100, 0⟩ ∧ t.link = ⟨selected, none⟩ ∧
    t.requestReady = false ∧ t.alert = false ∧ t.safe = false ∧ t.responses = [] ∧ t.issued = []

/-- RESET_N asserted withdraws ready, deasserts SAFE and ALERT_N, releases SDO and abandons the work in progress, without
responses; while it is asserted nothing but the end of reset acts on the part (R118, R160, R187). That the work is abandoned
at the assertion and the other items take their reset values at the release is the model's reading
(notes/assumptions/19.md), and so is that an event presented meanwhile, a link command too, leaves the state as it stands
(notes/assumptions/4.md, 9.md). -/
def Obligations.ResetSilencesAndHoldsThePart : Prop :=
  (∀ s : State, ∃ t, exec .resetAssert s = .next t ∧ t.inReset = true ∧ t.requestReady = false ∧ t.safe = false ∧
    t.alert = false ∧ (∀ p, t.sdo p = none) ∧ t.link.frame = none ∧ t.table = [] ∧ t.responses = s.responses ∧
    (∀ g, t.tag g = .free) ∧ t.dport.anchorQueue = [] ∧ t.dport.logQueue = [] ∧ t.dport.rollQueue = [] ∧
    t.writer.builder = none ∧ t.writer.closing = [] ∧ t.writer.deferred = none ∧ t.writer.granted = none ∧
    (∀ r, t.writer.held.get r = none) ∧ t.engine.walk = none ∧ t.engine.queue = [] ∧ t.log.anchor = none ∧
    t.log.deferred = none ∧ t.issued = s.issued ∧ t.pending = s.pending) ∧
  (∀ (c : Instr) (s : State), s.inReset = true → c ≠ .resetAssert → (∀ m b, c ≠ .resetRelease m b) → exec c s = .next s)

/-- No request is issued before the wait after reset has passed, and its end changes nothing else (R118, R164). That an
event which is not due changes nothing is the model's reading (notes/assumptions/4.md). -/
def Obligations.FirstIssueWaitsForTheDelay : Prop :=
  (∀ s : State, s.inReset = false → exec .firstIssueDelayExpiry s = .next { s with issueAllowed := true }) ∧
  (∀ s : State, s.issueAllowed = false → exec .downstreamIssue s = .next s)

/-! ## The management link -/

/-- IDENT returns the device code, the revision code and the sampled memory size code, and changes nothing (R188). -/
def Obligations.IdentReportsTheDevice : Prop :=
  ∀ s : State, LinkReady s → Takes .ident s .ok [0x20, 0x80, 0x01, BitVec.ofNat 8 s.msize.val] s

/-- READ_STATUS returns Table 11-6 and changes nothing; the entry-state counts add up to the entry count, and the Power-Fail
phase is NONE outside QUIESCING and HALTED (R189). That a queue length too great for its byte is shown modulo 256 is the
model's choice (notes/assumptions/23.md). -/
def Obligations.ReadStatusReportsThePart : Prop :=
  ∀ s : State, InRange s → LinkReady s → ∃ data, Takes .readStatus s .ok data s ∧ data.length = 17 ∧
    field data 0 1 = s.device.code ∧ field data 1 1 = s.powerFail.phase.code ∧ field data 2 1 = s.table.length ∧
    field data 3 1 = s.table.countP (fun e => e.state = .waitOrder) ∧
    field data 4 1 = s.table.countP (fun e => e.state = .waitRegion) ∧
    field data 5 1 = s.table.countP (fun e => e.state = .waitLog) ∧
    field data 6 1 = s.table.countP (fun e => e.state = .waitSpace) ∧
    field data 7 1 = s.table.countP (fun e => e.state = .ready) ∧
    field data 8 1 = s.table.countP (fun e => e.state = .issued) ∧
    field data 3 1 + field data 4 1 + field data 5 1 + field data 6 1 + field data 7 1 + field data 8 1 = s.table.length ∧
    field data 9 2 = s.directory.length ∧ field data 11 1 = s.engine.queue.length % 256 ∧
    field data 12 1 = (match s.engine.walk with
      | some r => r.val
      | none => 0xFF) ∧
    field data 13 1 = s.faults.length ∧ field data 14 1 = allTags.countP (fun g => (s.tag g).isOutstanding) ∧
    field data 15 1 = allTags.countP (fun g => (s.tag g).isQuarantined) ∧
    (field data 16 1 = 1 ↔ ∀ g, (s.tag g).isQuarantined = true) ∧ field data 16 1 ≤ 1 ∧
    (PowerLaw s → s.device ≠ .quiescing → s.device ≠ .halted → field data 1 1 = 0)

/-- READ_LOG returns Table 11-8 and changes nothing; the current slot is 0xFF when none is held and the snapshot tail
0xFFFFFFFF while no anchor write is in progress (R190). A count is reported in the bytes the table gives it. That a count
too great for its bytes is shown modulo their width is the model's choice (notes/assumptions/23.md). -/
def Obligations.ReadLogReportsTheLog : Prop :=
  ∀ s : State, LinkReady s → ∃ data, Takes .readLog s .ok data s ∧ data.length = 56 ∧
    (s.log.geometry = none → field data 0 1 = 0 ∧ field data 1 4 = 0 ∧ field data 5 4 = 0 ∧ field data 9 4 = 0 ∧
      field data 52 4 = 0) ∧
    (∀ g, s.log.geometry = some g → field data 0 1 = 1 ∧ field data 1 4 = g.base % 2 ^ 32 ∧
      field data 5 4 = g.size % 2 ^ 32 ∧ field data 9 4 = g.size / 32 % 2 ^ 32 ∧ field data 52 4 = s.log.free % 2 ^ 32) ∧
    field data 13 4 = s.log.generation.toNat ∧ field data 17 4 = s.log.nextSeq.toNat ∧
    field data 21 4 = s.log.head % 2 ^ 32 ∧ field data 25 4 = s.log.volatileTail % 2 ^ 32 ∧
    field data 29 4 = s.log.tailSeq.toNat ∧ field data 33 4 = s.log.durableTail % 2 ^ 32 ∧
    field data 37 1 = (match s.log.slot with
      | some i => i.val
      | none => 0xFF) ∧
    field data 38 4 = s.log.anchorSeq.toNat ∧ field data 42 1 = s.log.unresolved % 256 ∧
    (s.log.anchor = none → field data 43 1 = 0 ∧ field data 44 4 = 0xFFFFFFFF) ∧
    (∀ a, s.log.anchor = some a → field data 43 1 = 1 ∧ field data 44 4 = a.tail % 2 ^ 32) ∧
    field data 48 1 = (if s.log.anchorWanted then 1 else 0) ∧
    (s.log.deferred = none → field data 49 1 = 0xFF ∧ field data 50 1 = 0) ∧
    (∀ d, s.log.deferred = some d → field data 49 1 = d.region.val ∧ field data 50 1 = d.lines % 256) ∧
    field data 51 1 = (if s.log.below then 1 else 0)

/-- READ_REGION returns Table 11-7 for a region 0 to 7 and changes nothing (R30). A count is reported in the bytes the table
gives it. That a record count too great for its bytes is shown modulo their width is the model's choice
(notes/assumptions/23.md). -/
def Obligations.ReadRegionReportsTheContext : Prop :=
  ∀ (b : Byte) (r : RegionId) (s : State), InRange s → LinkReady s → Serving s → b.toNat = r.val →
    ∃ data, Takes (.readRegion b) s .ok data s ∧ data.length = 46 ∧
      DescriptorShown data 0 (s.region r).live ∧ DescriptorShown data 11 (s.region r).staged ∧
      field data 22 1 = (s.region r).pendingApply.code ∧ field data 23 1 = (s.region r).txn.code ∧
      field data 24 4 = (s.region r).number.toNat ∧ field data 28 4 = (s.region r).records % 2 ^ 32 ∧
      field data 32 4 = indexShown (s.region r).firstIndex ∧ field data 36 4 = indexShown (s.region r).lastIndex ∧
      field data 40 1 = (if (s.region r).saturated then 1 else 0) ∧ field data 41 2 = (s.region r).age ∧
      field data 43 1 = (s.region r).sub.code ∧
      field data 44 2 = s.directory.countP (fun d => d.region = r)

/-- READ_PARAM returns a parameter's value in two bytes, in every device state, and BAD_ARG with zeros for a code that names
none (R192). -/
def Obligations.ReadParamReportsTheParameter : Prop :=
  ∀ (p : Byte) (s : State), InRange s → LinkReady s →
    (∀ v, p = 0 ∧ v = s.params.tickPeriod ∨ p = 1 ∧ v = s.params.retryLimit ∨ p = 2 ∧ v = s.params.anchorStride ∨
      p = 3 ∧ v = s.params.spaceWatermark ∨ p = 4 ∧ v = s.params.dto →
      ∃ data, Takes (.readParam p) s .ok data s ∧ data.length = 2 ∧ field data 0 2 = v) ∧
    (4 < p.toNat → Takes (.readParam p) s .badArg [0, 0] s)

/-- READ_PENDING returns the 27 flags as a mask with bit `n` for source `n`, the threshold and whether ALERT_N is asserted,
and changes nothing (R180, Table 11-4). ALERT_N is asserted exactly when some source signals, its flag yes and its priority
above the threshold, and RESET_N is not asserted (R176, R177). -/
def Obligations.ReadPendingReportsTheFlags : Prop :=
  (∀ s : State, InRange s → LinkReady s → ∃ data, Takes .readPending s .ok data s ∧ data.length = 6 ∧
    (∀ n : Source, (field data 0 4).testBit n.val = s.flag n) ∧ (∀ i, 28 ≤ i → (field data 0 4).testBit i = false) ∧
    field data 4 1 = s.notices.threshold ∧ field data 5 1 = (if s.alert then 1 else 0)) ∧
  (∀ s : State, InRange s → (s.alert = true ↔ s.inReset = false ∧ ∃ n, Signalling s n))

/-- READ_FAULT returns the number of entries and the oldest one, or count 0 with kind NONE, and changes nothing (R116). That
an attempt count too great for its byte is shown modulo 256 is the model's choice (notes/assumptions/23.md). -/
def Obligations.ReadFaultReportsTheOldestEntry : Prop :=
  ∀ s : State, InRange s → LinkReady s → ∃ data, Takes .readFault s .ok data s ∧ data.length = 13 ∧
    field data 0 1 = s.faults.length ∧
    (s.faults = [] → field data 1 1 = 0 ∧ field data 2 1 = 0xFF ∧ field data 3 4 = 0xFFFFFFFF ∧
      field data 7 4 = 0xFFFFFFFF ∧ field data 11 1 = 0 ∧ field data 12 1 = 0) ∧
    (∀ e rest, s.faults = e :: rest → field data 1 1 = e.kind.code ∧
      field data 2 1 = (match e.region with
        | some r => r.val
        | none => 0xFF) ∧
      field data 3 4 = indexShown e.addr ∧ field data 7 4 = (match e.sequence with
        | some q => q.toNat
        | none => 0xFFFFFFFF) ∧
      field data 11 1 = e.attempts % 256 ∧ field data 12 1 = (if e.overwritten then 1 else 0))

/-- CLAIM selects the signalling source of the greatest priority, the lowest number among equals, clears its flag and
returns its number, and returns 0 and changes nothing when no source signals (R178). -/
def Obligations.ClaimTakesTheGreatestPriority : Prop :=
  ∀ s : State, LinkReady s →
    (∀ n : Source, n ≠ 0 → Signalling s n →
      (∀ m : Source, m ≠ 0 → Signalling s m → s.notices.priority.get m < s.notices.priority.get n ∨
        s.notices.priority.get m = s.notices.priority.get n ∧ n ≤ m) →
      Takes .claim s .ok [BitVec.ofNat 8 n.val]
        { s with notices := { s.notices with flags := s.notices.flags.set n.val false } }) ∧
    ((∀ n : Source, n ≠ 0 → ¬Signalling s n) → Takes .claim s .ok [0] s)

/-- Outside RUN, NOLOG and LOG_FAULT every command but the six reads and CLAIM returns BUSY, before any check of its own;
elsewhere a command on a region above 7 returns NO_REGION. Neither changes anything (R186, Tables 11-2 and 11-3). -/
def Obligations.LinkRefusesByDeviceStateAndRegion : Prop :=
  (∀ (c : Instr) (n : Nat) (s : State), gatedLength c = some n → LinkReady s → ¬Serving s →
    Takes c s .busy (List.replicate n 0) s) ∧
  (∀ (c : Instr) (b : Byte) (n : Nat) (s : State), regionOperand c = some (b, n) → 7 < b.toNat → LinkReady s → Serving s →
    Takes c s .noRegion (List.replicate n 0) s)

/-- A code that Table 11-4 does not list returns BAD_ARG in every device state and changes nothing (R185); an APPLY with an
unknown point returns BAD_ARG for a region 0 to 7, NO_REGION above 7, and BUSY where the device state refuses it (R10, R186).
That it is a command of this row is the model's reading (notes/assumptions/10.md). -/
def Obligations.UnknownCommandIsRefused : Prop :=
  (∀ (code : Byte) (s : State), operandBytes code.toNat = none → LinkReady s →
    Takes (.unknownCommand code []) s .badArg [] s) ∧
  (∀ (b point : Byte) (s : State), 3 < point.toNat → LinkReady s →
    (Serving s → b.toNat ≤ 7 → Takes (.unknownCommand 0x11 [b, point]) s .badArg [] s) ∧
    (Serving s → 7 < b.toNat → Takes (.unknownCommand 0x11 [b, point]) s .noRegion [] s) ∧
    (¬Serving s → Takes (.unknownCommand 0x11 [b, point]) s .busy [] s))

/-- The end of a frame, and the discard of one whose command was not taken, leave the link free and change nothing else; a
frame carries one command, and a second command needs a new frame (R183, R187). Clocking a command's bytes in from the
assertion of SCS_N, most significant bits first, takes the command on its last bit and on none before; the phases and SDO
follow Table 11-1: zeros up to the turnaround byte, then the result byte, the result data and zeros, and SDO is not driven
without a frame (R182). That a command presented while a frame is held changes nothing, and that a command of the table
stands for its whole frame, is the model's reading (notes/assumptions/8.md, 9.md). -/
def Obligations.FrameCarriesOneCommandAndItsResult : Prop :=
  (∀ s : State, s.inReset = false → exec .frameEnd s = .next { s with link := ⟨false, none⟩ }) ∧
  (∀ (bytes : List Byte) (s : State), incompleteFrame bytes = true → s.inReset = false →
    (∀ f, s.link.frame = some f → f.answer = none) → exec (.frameDiscard bytes) s = .next { s with link := ⟨false, none⟩ }) ∧
  (∀ (c : Instr) (s : State), frameBytes c ≠ [] → s.link.frame ≠ none → exec c s = .next s) ∧
  (∀ s : State, s.inReset = false → s.link.frame = none → ∀ p, s.sdo p = none) ∧
  (∀ (c : Instr) (s : State), c.wf = true → frameBytes c ≠ [] → LinkReady s →
    s.selectLink.clockBits ((frameBytes c).flatMap byteBits) = exec c s) ∧
  (∀ (s : State) (f : Frame), s.inReset = false → s.link.frame = some f → f.answer = none →
    (∀ p, s.sdo p = some 0) ∧ f.phase = (if f.received = [] then .command else .operands)) ∧
  (∀ (s : State) (f : Frame) (a : Answer), s.inReset = false → s.link.frame = some f → f.answer = some a →
    (∀ b, s.clockLink b = .next { s with link := { s.link with frame := some { f with edges := f.edges + 1 } } }) ∧
    (∀ p, p ≤ f.received.length → s.sdo p = some 0 ∧ (f.edges / 8 = p → f.phase = .turnaround)) ∧
    s.sdo (f.received.length + 1) = some a.result.code ∧ (f.edges / 8 = f.received.length + 1 → f.phase = .result) ∧
    (∀ i, (h : i < a.data.length) → s.sdo (f.received.length + 2 + i) = some (a.data[i]) ∧
      (f.edges / 8 = f.received.length + 2 + i → f.phase = .data)) ∧
    (∀ p, f.received.length + 2 + a.data.length ≤ p → s.sdo p = some 0 ∧ (f.edges / 8 = p → f.phase = .trailing)) ∧
    s.sdoLevel = (s.sdo (f.edges / 8)).map fun b => b.getLsbD (7 - f.edges % 8))

/-! ## Regions and transactions -/

/-- STAGE writes one field of the staged descriptor when the value is one the field takes, and otherwise returns BAD_ARG, or
NO_REGION above 7, and changes nothing (R6). -/
def Obligations.StageWritesOneStagedField : Prop :=
  ∀ (b f : Byte) (v : Word32) (s : State), LinkReady s → Serving s →
    (7 < b.toNat → Takes (.stage b f v) s .noRegion [] s) ∧
    ∀ r : RegionId, b.toNat = r.val →
      let d := (s.region r).staged
      let stages (d : Descriptor) := Takes (.stage b f v) s .ok [] (s.updRegion r fun x => { x with staged := d })
      (f = 0 → v = 0 → stages { d with enable := false }) ∧ (f = 0 → v = 1 → stages { d with enable := true }) ∧
      (f = 1 → v.toNat % 32 = 0 → v.toNat < s.memorySize → stages { d with base := v.toNat }) ∧
      (f = 2 → v.toNat ≤ 0xFFFF → stages { d with size := v.toNat + 1 }) ∧
      (f = 3 → v = 0 → stages { d with outside := .pass }) ∧ (f = 3 → v = 1 → stages { d with outside := .refuse }) ∧
      (f = 4 → v = 0 → stages { d with space := .wait }) ∧ (f = 4 → v = 1 → stages { d with space := .fail }) ∧
      (f = 4 → v = 2 → stages { d with space := .abort }) ∧
      (f = 5 → v.toNat ≤ 0xFFFF → stages { d with ageLimit := v.toNat }) ∧
      (f = 6 → v = 0 → stages { d with ageAction := .notify }) ∧ (f = 6 → v = 1 → stages { d with ageAction := .abort }) ∧
      (6 < f.toNat ∨ (f = 0 ∨ f = 3 ∨ f = 6) ∧ 1 < v.toNat ∨ f = 1 ∧ (v.toNat % 32 ≠ 0 ∨ s.memorySize ≤ v.toNat) ∨
          (f = 2 ∨ f = 5) ∧ 0xFFFF < v.toNat ∨ f = 4 ∧ 2 < v.toNat →
        Takes (.stage b f v) s .badArg [] s)

/-- APPLY NOW copies the staged descriptor to the live one in IDLE when the checks of R5 pass; it returns OVERLAP when they
fail and STATE outside IDLE, and then changes nothing (R7). -/
def Obligations.ApplyNowMakesTheStagedCopyLive : Prop :=
  ∀ (b : Byte) (r : RegionId) (s : State), InRange s → WindowLaw s → LinkReady s → Serving s → b.toNat = r.val →
    ((s.region r).txn ≠ .idle → Takes (.applyNow b) s .state [] s) ∧
    ((s.region r).txn = .idle → ¬PassesChecks s r → Takes (.applyNow b) s .overlap [] s) ∧
    ((s.region r).txn = .idle → PassesChecks s r → Takes (.applyNow b) s .ok []
      (s.updRegion r fun x => { x with live := x.staged, pendingApply := .none }))

/-- APPLY AT_CLOSE is made at once in IDLE and is otherwise left pending (R8); AT_BEGIN is left pending and CANCEL withdraws
what is pending, in every region state (R9, R10). -/
def Obligations.ApplyCanBeDeferredOrWithdrawn : Prop :=
  ∀ (b : Byte) (r : RegionId) (s : State), InRange s → WindowLaw s → LinkReady s → Serving s → b.toNat = r.val →
    ((s.region r).txn ≠ .idle →
      Takes (.applyAtClose b) s .ok [] (s.updRegion r fun x => { x with pendingApply := .atClose })) ∧
    ((s.region r).txn = .idle → PassesChecks s r →
      Takes (.applyAtClose b) s .ok [] (s.updRegion r fun x => { x with live := x.staged, pendingApply := .none })) ∧
    ((s.region r).txn = .idle → ¬PassesChecks s r →
      Takes (.applyAtClose b) s .overlap [] (s.updRegion r fun x => { x with pendingApply := .none })) ∧
    Takes (.applyAtBegin b) s .ok [] (s.updRegion r fun x => { x with pendingApply := .atBegin }) ∧
    Takes (.applyCancel b) s .ok [] (s.updRegion r fun x => { x with pendingApply := .none })

/-- BEGIN makes its checks in the order of R15: BUSY, NO_REGION, NO_LOG, STATE outside IDLE, the pending AT_BEGIN apply,
STATE when the region is not enabled; when all pass the region enters OPEN with the values R15 lists, and nothing else
changes. -/
def Obligations.BeginOpensATransaction : Prop :=
  ∀ (b : Byte) (s : State), LinkReady s →
    (¬Serving s → Takes (.beginTxn b) s .busy [] s) ∧
    (Serving s → 7 < b.toNat → Takes (.beginTxn b) s .noRegion [] s) ∧
    (s.device = .nolog ∨ s.device = .logFault → b.toNat ≤ 7 → Takes (.beginTxn b) s .noLog [] s) ∧
    (∀ r : RegionId, InRange s → WindowLaw s → s.device = .run → b.toNat = r.val →
      ((s.region r).txn ≠ .idle → Takes (.beginTxn b) s .state [] s) ∧
      ((s.region r).txn = .idle → (s.region r).pendingApply ≠ .atBegin →
        ((s.region r).live.enable = false → Takes (.beginTxn b) s .state [] s) ∧
        ((s.region r).live.enable = true → Takes (.beginTxn b) s .ok [] (s.updRegion r Region.begun))) ∧
      ((s.region r).txn = .idle → (s.region r).pendingApply = .atBegin →
        (¬PassesChecks s r → Takes (.beginTxn b) s .overlap [] (s.updRegion r fun x => { x with pendingApply := .none })) ∧
        (PassesChecks s r → (s.region r).staged.enable = false →
          Takes (.beginTxn b) s .state [] (s.updRegion r fun x => { x with live := x.staged, pendingApply := .none })) ∧
        (PassesChecks s r → (s.region r).staged.enable = true →
          Takes (.beginTxn b) s .ok []
            (s.updRegion r fun x => Region.begun { x with live := x.staged, pendingApply := .none }))))

/-- COMMIT in OPEN answers the HELD group NO_SPACE, removes its PENDING entries and fixes the drain set: every other write
in the live window. With an empty drain set and no record it completes at once; otherwise the region is COMMITTING, and
nothing else changes. Outside OPEN it returns STATE and changes nothing (R17, R18, R21). The order of the responses within
the command is the model's choice (notes/assumptions/6.md), and that what follows on the same event comes after it its
reading (notes/assumptions/3.md). -/
def Obligations.CommitFixesItsDrainSet : Prop :=
  ∀ (b : Byte) (r : RegionId) (s : State), LinkReady s → Serving s → b.toNat = r.val →
    ((s.region r).txn ≠ .opened → Takes (.commit b) s .state [] s) ∧
    ((s.region r).txn = .opened →
      let members : List HostTag := (s.writer.held.get r).elim [] fun h => h.group.members
      let tracked : List Nat := (s.writer.held.get r).elim [] fun h => h.group.tracked
      let held : Entry → Bool := fun e => members.contains e.tag
      let answers := (s.table.filter held).map fun e => e.errResponse .noSpace
      let left := s.table.filter fun e => !held e
      let drain := (left.filter fun e => e.op = .write ∧ (s.region r).live.holds e.addr = true).map Entry.tag
      ∃ t : State, Takes (.commit b) s .ok [] t.followOn ∧
        (drain = [] → (s.region r).records = 0 →
          (t.region r).txn = .idle ∧ (t.region r).number = nextNumber (s.region r).number ∧
          t.flag (commitDone r) = true ∧ t.directory = s.directory.filter (fun d => d.region ≠ r) ∧
          (∃ more, t.responses = s.responses ++ answers ++ more) ∧ OtherRegions r s t ∧
          Keeps [.regions, .drains, .directory, .writer, .faults, .notices, .table, .responses] s t) ∧
        (¬(drain = [] ∧ (s.region r).records = 0) →
          t.region r = { s.region r with txn := .committing, drain := drain, recordPhase := false, expiryDue := false } ∧
          t.table = left ∧ t.responses = s.responses ++ answers ∧ t.writer.held.get r = none ∧
          t.directory = s.directory.filter (fun d => !(d.region == r && !d.durable && tracked.contains d.line)) ∧
          (∀ q, q ≠ r → t.writer.held.get q = s.writer.held.get q) ∧ t.writer.builder = s.writer.builder ∧
          t.writer.closing = s.writer.closing ∧ OtherRegions r s t ∧
          Keeps [.regions, .drains, .directory, .writer, .table, .responses] s t))

/-- ABORT in OPEN frees the region's directory entries, discards its HELD group and withdraws its DEFERRED group. With
records, or an admitted group, its writes that no admitted group holds move to WAIT_REGION and the region joins the tail of
the rollback queue; without, it returns to IDLE at once with ROLLBACK_DONE. Outside OPEN it returns STATE and changes nothing
(R22, R79, R80). That a group whose grant is held counts as admitted, and that what follows on the same event comes after it,
is the model's reading (notes/assumptions/12.md, 3.md). -/
def Obligations.AbortEndsOrQueuesTheTransaction : Prop :=
  ∀ (b : Byte) (r : RegionId) (s : State), LinkReady s → Serving s → b.toNat = r.val →
    ((s.region r).txn ≠ .opened → Takes (.abort b) s .state [] s) ∧
    ((s.region r).txn = .opened →
      let withdrawn := ∃ d, s.writer.deferred = some d ∧ d.region = r
      let groupsLeft (t : State) := t.writer.held.get r = none ∧ (∀ q, q ≠ r → t.writer.held.get q = s.writer.held.get q) ∧
        t.writer.builder = s.writer.builder ∧ t.writer.granted = s.writer.granted ∧
        t.writer.closing = s.writer.closing ∧ (withdrawn → t.writer.deferred = none ∧ t.log.deferred = none) ∧
        (¬withdrawn → t.writer.deferred = s.writer.deferred ∧ t.log.deferred = s.log.deferred)
      ((s.region r).records = 0 → s.hasBusyGroup r = false → ∃ t : State, Takes (.abort b) s .ok [] t.followOn ∧
        (t.region r).txn = .idle ∧ (t.region r).number = nextNumber (s.region r).number ∧
        t.flag (rollbackDone r) = true ∧ t.directory = s.directory.filter (fun d => d.region ≠ r) ∧ groupsLeft t ∧
        t.engine.queue = s.engine.queue ∧ OtherRegions r s t ∧
        Keeps [.regions, .drains, .directory, .log, .writer, .faults, .notices, .table, .responses] s t) ∧
      (((s.region r).records ≠ 0 ∨ s.hasBusyGroup r = true) → ∃ t : State, Takes (.abort b) s .ok [] t.followOn ∧
        t.region r = { s.region r with txn := .rollingBack, sub := .queued, drain := [], recordPhase := false,
                                       expiryDue := false } ∧
        t.engine = { s.engine with queue := s.engine.queue ++ [r] } ∧
        t.directory = s.directory.filter (fun d => d.region ≠ r) ∧ groupsLeft t ∧
        t.table = s.table.map (fun e =>
          if e.tag ∈ s.abortMoves r ∧ (e.state = .waitLog ∨ e.state = .waitSpace) then { e with state := .waitRegion }
          else e) ∧
        OtherRegions r s t ∧ Keeps [.regions, .drains, .directory, .log, .writer, .engine, .table] s t))

/-- RETRY makes its checks in the order of R25, BUSY, NO_REGION, NO_LOG and STATE for a region that is not FAULTED, and a
refused one changes nothing; otherwise it puts the FAULTED region at the tail of the rollback queue (R25). That what
follows on the same event, such as the start of its walk, comes after it is the model's reading (notes/assumptions/3.md). -/
def Obligations.RetryQueuesAFaultedRegion : Prop :=
  ∀ (b : Byte) (s : State), LinkReady s →
    (¬Serving s → Takes (.retry b) s .busy [] s) ∧
    (Serving s → 7 < b.toNat → Takes (.retry b) s .noRegion [] s) ∧
    (s.device = .nolog ∨ s.device = .logFault → b.toNat ≤ 7 → Takes (.retry b) s .noLog [] s) ∧
    (∀ r : RegionId, s.device = .run → b.toNat = r.val →
      ((s.region r).txn ≠ .faulted → Takes (.retry b) s .state [] s) ∧
      ((s.region r).txn = .faulted → Takes (.retry b) s .ok []
        (State.followOn { s.updRegion r (fun x => { x with txn := .rollingBack, sub := .queued, drain := [],
                                                           recordPhase := false, expiryDue := false }) with
          engine := { s.engine with queue := s.engine.queue ++ [r] } })))

/-! ## FORMAT -/

/-- FORMAT makes its checks in the order of R55 and a refused one changes nothing. That what follows on the same
event comes after it is the model's reading (notes/assumptions/3.md). -/
def Obligations.FormatChecksInOrder : Prop :=
  ∀ (base : BitVec 24) (units : BitVec 16) (s : State), InRange s → LinkReady s → Serving s →
    let g : Geometry := ⟨base.toNat, 4096 * units.toNat⟩
    let placed := base.toNat % 4096 = 0 ∧ 2 ≤ units.toNat ∧ units.toNat ≤ 512
    let running := s.device ≠ .logFault ∧ ∃ r, (s.region r).txn ≠ .idle ∧ (s.region r).txn ≠ .faulted
    let meets := s.memorySize - 64 < g.base + g.size ∨
      ∃ r addr, (s.region r).live.enable = true ∧ (s.region r).live.holds addr = true ∧ g.holds addr = true
    (¬placed → Takes (.format base units) s .badArg [] s) ∧
    (placed → running → Takes (.format base units) s .state [] s) ∧
    (placed → ¬running → s.log.anchor ≠ none → Takes (.format base units) s .busy [] s) ∧
    (placed → ¬running → s.log.anchor = none → meets → Takes (.format base units) s .overlap [] s) ∧
    (placed → ¬running → s.log.anchor = none → ¬meets → ∃ t : State, Takes (.format base units) s .ok [] t.followOn ∧
      t.device = .formatting ∧ t.log.geometry = some g)

/-- FORMAT as taken gives the log its new geometry and generation, empties it, sets every transaction number to 1 and
returns every FAULTED region to IDLE; the staged descriptors and the downstream port stay (R56). That a FAULTED
region's pending AT_CLOSE apply is carried out is the model's reading of R23 and R56 (notes/assumptions/32.md), the order of
the regions its choice (30.md), and that what follows on the same event comes after it its reading (3.md). -/
def Obligations.FormatMakesANewLog : Prop :=
  ∀ (base : BitVec 24) (units : BitVec 16) (s : State), LinkReady s → Serving s → s.log.anchor = none →
    base.toNat % 4096 = 0 → 2 ≤ units.toNat → units.toNat ≤ 512 → s.areaMeets base.toNat (4096 * units.toNat) = false →
    (∀ r, (s.region r).txn = .idle ∨ (s.region r).txn = .faulted) → ∃ t : State,
      Takes (.format base units) s .ok [] t.followOn ∧
      t.device = .formatting ∧ t.log.geometry = some ⟨base.toNat, 4096 * units.toNat⟩ ∧
      t.log.generation = (if s.log.slot = none ∨ s.log.generation = 0xFFFFFFFF then 1 else s.log.generation + 1) ∧
      t.log.nextSeq = 0 ∧ t.log.head = 0 ∧ t.log.volatileTail = 0 ∧ t.log.tailSeq = 0 ∧ t.log.durableTail = 0 ∧
      t.log.unresolved = 0 ∧ (∀ r, t.log.firstSeqs.get r = none) ∧ t.log.anchorWanted = false ∧
      t.log.free = 128 * units.toNat ∧ (t.log.below = true ↔ 128 * units.toNat < s.params.spaceWatermark) ∧
      t.log.slot = s.log.slot ∧ t.log.anchorSeq = s.log.anchorSeq ∧ t.log.anchor = none ∧
      (∀ r, (t.region r).txn = .idle ∧ (t.region r).number = 1 ∧ (t.region r).staged = (s.region r).staged) ∧
      Keeps [.device, .regions, .drains, .directory, .log, .faults, .notices, .table, .responses] s t

/-! ## Parameters, priorities, the Fault Queue, the quarantine -/

/-- SET_PARAM returns BUSY outside RUN, NOLOG and LOG_FAULT; there it writes a parameter when the value lies in its range,
and otherwise returns BAD_ARG. A refused one changes nothing (R191, Table 11-5). -/
def Obligations.SetParamWritesWithinRange : Prop :=
  ∀ (p : Byte) (v : BitVec 16) (s : State), LinkReady s →
    (¬Serving s → Takes (.setParam p v) s .busy [] s) ∧
    (Serving s →
      let sets (q : Params) := Takes (.setParam p v) s .ok [] { s with params := q }
      (p = 0 → 1 ≤ v.toNat → v.toNat ≤ 1024 → sets { s.params with tickPeriod := v.toNat }) ∧
      (p = 1 → v.toNat ≤ 7 → sets { s.params with retryLimit := v.toNat }) ∧
      (p = 2 → sets { s.params with anchorStride := v.toNat }) ∧
      (p = 3 → sets { s.params with spaceWatermark := v.toNat }) ∧
      (p = 4 → 1 ≤ v.toNat → v.toNat ≤ 255 → sets { s.params with dto := v.toNat }) ∧
      (4 < p.toNat ∨ p = 0 ∧ (v.toNat = 0 ∨ 1024 < v.toNat) ∨ p = 1 ∧ 7 < v.toNat ∨
          p = 4 ∧ (v.toNat = 0 ∨ 255 < v.toNat) → Takes (.setParam p v) s .badArg [] s))

/-- SET_PRIORITY sets the priority of a source 1 to 27 to a value 0 to 7 and SET_THRESHOLD the threshold; a source or value
out of range gets BAD_ARG and changes nothing, and no flag is touched (R174, R176). -/
def Obligations.PriorityAndThresholdAreSetWithinRange : Prop :=
  ∀ s : State, LinkReady s → Serving s →
    (∀ (n : Source) (b p : Byte), b.toNat = n.val → n ≠ 0 → p.toNat ≤ 7 → Takes (.setPriority b p) s .ok []
      { s with notices := { s.notices with priority := s.notices.priority.set n.val p.toNat } }) ∧
    (∀ b p : Byte, b = 0 ∨ 27 < b.toNat ∨ 7 < p.toNat → Takes (.setPriority b p) s .badArg [] s) ∧
    (∀ p : Byte, p.toNat ≤ 7 → Takes (.setThreshold p) s .ok []
      { s with notices := { s.notices with threshold := p.toNat } }) ∧
    (∀ p : Byte, 7 < p.toNat → Takes (.setThreshold p) s .badArg [] s)

/-- POP_FAULT removes the oldest entry, returns STATE on an empty queue and BUSY outside RUN, NOLOG and LOG_FAULT, and
changes nothing else; the FAULT notice stays (R117). -/
def Obligations.PopFaultRemovesTheOldestEntry : Prop :=
  ∀ s : State, LinkReady s →
    (¬Serving s → Takes .popFault s .busy [] s) ∧
    (Serving s → s.faults = [] → Takes .popFault s .state [] s) ∧
    (Serving s → s.faults ≠ [] → Takes .popFault s .ok [] { s with faults := s.faults.tail })

/-- DPORT_CLEAR frees every QUARANTINED tag, so that the port is not stalled, and leaves the other tags, the class queues and
everything else as they stand; outside RUN, NOLOG and LOG_FAULT it returns BUSY and changes nothing (R171). That
the starts of the entries it lets start come after it, on the same event, is the model's reading (notes/assumptions/3.md). -/
def Obligations.DportClearEmptiesTheQuarantine : Prop :=
  ∀ s : State, LinkReady s →
    (¬Serving s → Takes .dportClear s .busy [] s) ∧
    (Serving s → ∃ t : State, Takes .dportClear s .ok [] t.followOn ∧
      (∀ g, t.tag g = if (s.tag g).isQuarantined then .free else s.tag g) ∧ t.portStalled = false ∧
      t.dport.anchorQueue = s.dport.anchorQueue ∧ t.dport.logQueue = s.dport.logQueue ∧
      t.dport.rollQueue = s.dport.rollQueue ∧ t.dport.share = s.dport.share ∧ Keeps [.dport] s t)

/-! ## The upstream port -/

/-- A request presented while ready is asserted is dropped with UPSTREAM_PROTOCOL when its tag is in the table, answered
PROTOCOL when it is malformed, and otherwise entered behind every other entry in WAIT_ORDER, and tested for start
on the same event; without ready it stays with the host (R148, R151, R153). That the host then keeps its request, the part
being unchanged, is the model's reading (notes/assumptions/4.md), and so is
the order of what follows on the event that takes one (notes/assumptions/3.md). -/
def Obligations.UpstreamRequestIsTakenInOrder : Prop :=
  ∀ (q : HostRequest) (s : State),
    (¬(s.inReset = false ∧ Serving s ∧ s.table.length < 16) → exec (.upstreamRequest q) s = .next s) ∧
    (s.inReset = false → Serving s → s.table.length < 16 →
      ((∃ e ∈ s.table, e.tag = q.tag) → exec (.upstreamRequest q) s =
        .next (s.pushFault ⟨.upstreamProtocol, none, some q.addr.toNat, none, 0, false⟩)) ∧
      ((∀ e ∈ s.table, e.tag ≠ q.tag) → ¬WellFormedRequest s q → exec (.upstreamRequest q) s =
        .next { s with responses := s.responses ++
          [⟨q.tag, .protocol, if q.op = .read then List.replicate q.count 0 else []⟩] }) ∧
      ((∀ e ∈ s.table, e.tag ≠ q.tag) → WellFormedRequest s q → ∃ d w,
        (q.op = .write → ∀ i, i < q.count → d.extractLsb' (32 * i) 32 = q.data.extractLsb' (32 * i) 32 ∧
          w.extractLsb' (4 * i) 4 = q.strobes.extractLsb' (4 * i) 4) ∧
        exec (.upstreamRequest q) s = .next
          (State.followOn
            { s with table := s.table ++ [⟨q.tag, q.op, q.addr.toNat, q.count, d, w, none, none, .waitOrder⟩] })))

/-- An entry does not start while an older entry for its line is in the table or a QUARANTINED tag holds an address in it,
and an entry that has started does not start again; on the event that leaves neither it starts, so that an event leaves no
entry that may start, nor anything else that R85, R86, R134 and R144 place on it (R155). What follows on an event changes
only what those rules give, and nothing where nothing is due. That an event which is not due changes nothing is the model's
reading (notes/assumptions/4.md), and so are the order of what follows (3.md), that SETTLING waits for the class queues too
(15.md) and that a recovery anchor waits for any anchor write in progress (20.md). -/
def Obligations.EntryWaitsForItsLine : Prop :=
  (∀ (pre post : List Entry) (e : Entry) (s : State), InRange s → Stands s pre e post →
    (e.state ≠ .waitOrder ∨ ¬LineClear s pre e) → exec (.entryStart e.tag) s = .next s) ∧
  (∀ s : State, InRange s → NothingDue s.followOn) ∧
  (∀ s : State, InRange s → s.inReset = false → s.log.geometry ≠ none →
    (∀ r, s.engine.walk = some r → (s.region r).txn = .rollingBack) → NothingDue s → s.followOn = s) ∧
  (∀ s : State,
    Keeps [.device, .powerFail, .regions, .drains, .log, .engine, .table, .dport, .responses] s s.followOn ∧
    (∀ r, { s.followOn.region r with sub := .none, drain := [] } = { s.region r with sub := .none, drain := [] }) ∧
    (∃ more, s.followOn.responses = s.responses ++ more) ∧ (∀ g, s.followOn.tag g = s.tag g))

/-- An entry that may start is classified by R3 and takes the state and handling, or the ERR response, of Table 8-5 for its
class, the device state and the region state, and nothing else changes but what follows on the event; the oldest entry that
may start after another event starts so too (R155, R156, Tables 1-4, 5-5 and 8-5). That a line with a PENDING entry only is a
first write, and what LOG_FAULT gives regions in OPEN, COMMITTING and ROLLING_BACK, is the model's reading
(notes/assumptions/17.md, 21.md), and so is the order of what follows (notes/assumptions/3.md). -/
def Obligations.EntryStartsByItsClass : Prop :=
  ∀ (pre post : List Entry) (e : Entry) (s : State), InRange s → s.inReset = false → Stands s pre e post →
    e.state = .waitOrder → LineClear s pre e →
    let starts (t : State) := exec (.entryStart e.tag) s = .next t.followOn ∧ (NoneStarts s pre → s.followOn = t.followOn)
    let goes (c : RequestClass) (st : EntryState) (h : Option Handling) :=
      starts { s with table := pre ++ { e with cls := some c, state := st, handling := h } :: post }
    let refused (reason : Reason) := ∃ t : State, starts t ∧ t.table = pre ++ post ∧
      t.responses = s.responses ++ [e.errResponse reason] ∧ Keeps [.table, .drains, .responses] s t
    (LogAddress s e.addr → refused .logArea) ∧
    (¬LogAddress s e.addr → (∀ r, ¬RegionAddress s e.addr r) → goes .unmapped .ready (some .passThrough)) ∧
    (∀ r, RegionAddress s e.addr r →
      (s.device = .logFault → e.op = .write → refused .logFault) ∧
      (e.op = .read → (s.region r).txn = .idle ∨ (s.region r).txn = .opened ∨ (s.region r).txn = .committing →
        goes (.region r) .ready (some .readForward)) ∧
      (s.device ≠ .logFault → e.op = .write → (s.region r).txn = .idle →
        ((s.region r).live.outside = .pass → goes (.region r) .ready (some .passThrough)) ∧
        ((s.region r).live.outside = .refuse → refused .refused)) ∧
      (s.device ≠ .logFault → e.op = .write → (s.region r).txn = .opened →
        (Captured s r e.addr → goes (.region r) .ready (some .inPlace)) ∧
        (¬Captured s r e.addr → goes (.region r) .waitLog (some .firstWrite))) ∧
      (s.device ≠ .logFault → e.op = .write → (s.region r).txn = .committing →
        (e.tag ∈ (s.region r).drain → Captured s r e.addr → goes (.region r) .ready (some .inPlace)) ∧
        (e.tag ∈ (s.region r).drain → ¬Captured s r e.addr → goes (.region r) .waitLog (some .drainWrite)) ∧
        (e.tag ∉ (s.region r).drain → goes (.region r) .waitRegion none)) ∧
      (s.device ≠ .logFault ∨ e.op = .read →
        ((s.region r).txn = .rollingBack → goes (.region r) .waitRegion none) ∧
        ((s.region r).txn = .faulted → refused .regionFault)))

/-! ## The downstream port -/

/-- One transfer issues the arbiter's choice under the lowest FREE tag: the host's oldest READY entry when the share is
spent or every queue is empty, and otherwise the head of the first class queue; the share count follows R165, and nothing is
issued without a request, a tag or leave to issue (R164, R165, R166). That an event which is not due changes nothing is the
model's reading (notes/assumptions/4.md). -/
def Obligations.ArbiterIssuesItsChoice : Prop :=
  ∀ (g : DownTag) (s : State), InRange s →
    (¬MayIssue s ∨ (∀ g', s.tag g' ≠ .free) ∨
        (¬HostWaits s ∧ s.dport.anchorQueue = [] ∧ s.dport.logQueue = [] ∧ s.dport.rollQueue = []) →
      exec .downstreamIssue s = .next s) ∧
    (MayIssue s → LowestFree s g → ∀ cls q, ChosenFromQueue s cls q → ∃ t, exec .downstreamIssue s = .next t ∧
      t.tag g = .outstanding q.owner cls q.op q.addr s.params.dto s.timebase.elapsed true ∧
      (∀ g', g' ≠ g → t.tag g' = s.tag g') ∧ t.issued = s.issued ++ [(g, q)] ∧
      t.dport.anchorQueue = (if cls = .anchor then s.dport.anchorQueue.tail else s.dport.anchorQueue) ∧
      t.dport.logQueue = (if cls = .logWriter then s.dport.logQueue.tail else s.dport.logQueue) ∧
      t.dport.rollQueue = (if cls = .rollback then s.dport.rollQueue.tail else s.dport.rollQueue) ∧
      (HostWaits s → t.dport.share = min (s.dport.share + 1) 4) ∧ (¬HostWaits s → t.dport.share = 0) ∧
      Keeps [.dport, .issued] s t) ∧
    (MayIssue s → LowestFree s g → ∀ pre e post, Stands s pre e post → (∀ x ∈ pre, x.state ≠ .ready) → e.state = .ready →
      s.dport.share = 4 ∨ s.dport.anchorQueue = [] ∧ s.dport.logQueue = [] ∧ s.dport.rollQueue = [] →
      ∃ t, exec .downstreamIssue s = .next t ∧
      t.tag g = .outstanding (.entry e.tag) .host e.op e.addr s.params.dto s.timebase.elapsed true ∧
      (∀ g', g' ≠ g → t.tag g' = s.tag g') ∧
      t.issued = s.issued ++ [(g, ⟨.entry e.tag, e.op, e.addr, e.count, e.data, e.strobes⟩)] ∧
      t.table = pre ++ { e with state := .issued } :: post ∧ t.dport.anchorQueue = s.dport.anchorQueue ∧
      t.dport.logQueue = s.dport.logQueue ∧ t.dport.rollQueue = s.dport.rollQueue ∧ t.dport.share = 0 ∧
      Keeps [.dport, .issued, .table] s t)

/-- A response on a FREE tag is ignored and one on a QUARANTINED tag is late: it only frees the tag. A response to an ISSUED
host request frees its tag and answers the entry: OK with the data read, or ERR with reason MEDIA and the fault of R82 or
R106 (R158, R167, R169). That what follows on the same event comes after it is the model's reading (notes/assumptions/3.md). -/
def Obligations.ResponseGoesToItsOwner : Prop :=
  ∀ (g : DownTag) (ok : Bool) (d : Line) (s : State), s.inReset = false →
    (s.tag g = .free → exec (.downstreamResponse g ok d) s = .next s) ∧
    (∀ a, s.tag g = .quarantined a → ∃ t : State, exec (.downstreamResponse g ok d) s = .next t.followOn ∧ t.tag g = .free ∧
      (∀ g', g' ≠ g → t.tag g' = s.tag g') ∧ t.dport.anchorQueue = s.dport.anchorQueue ∧
      t.dport.logQueue = s.dport.logQueue ∧ t.dport.rollQueue = s.dport.rollQueue ∧ t.dport.share = s.dport.share ∧
      Keeps [.dport] s t) ∧
    (∀ pre e post cls op a timer at_ live, InRange s → Stands s pre e post → e.state = .issued →
      s.tag g = .outstanding (.entry e.tag) cls op a timer at_ live →
        ∃ t : State, exec (.downstreamResponse g ok d) s = .next t.followOn ∧
      t.tag g = .free ∧ (∀ g', g' ≠ g → t.tag g' = s.tag g') ∧ t.table = pre ++ post ∧
      (ok = true → t.responses = s.responses ++ [e.okResponse d] ∧ Keeps [.dport, .table, .drains, .responses] s t) ∧
      (ok = false → t.responses = s.responses ++ [e.errResponse .media] ∧ t.flag faultSource = true ∧
        (∀ f, MediaFault e f → t.faults = pushEntry s.faults f) ∧
        Keeps [.dport, .table, .drains, .responses, .faults, .notices] s t))

/-- A timeout quarantines the tag with its address and answers an ISSUED host request ERR with reason MEDIA and its fault;
the expiry that brings the quarantine to 32 also pushes DPORT_STALLED, before or after that fault. A tag that is not
OUTSTANDING does not time out (R168, R170). That a timeout of another tag changes nothing is the model's reading
(notes/assumptions/4.md), and so is the order of what follows on the same event (3.md); which fault is pushed first is a
free value (notes/assumptions/5.md). -/
def Obligations.TimeoutQuarantinesTheTag : Prop :=
  ∀ (g : DownTag) (s : State), s.inReset = false →
    ((s.tag g).isOutstanding = false → exec (.responseTimeout g) s = .next s) ∧
    (∀ pre e post cls op a timer at_ live f, InRange s → Stands s pre e post → e.state = .issued →
      s.device ≠ .quiescing → s.device ≠ .halted → s.tag g = .outstanding (.entry e.tag) cls op a timer at_ live →
      MediaFault e f → ∃ t : State, exec (.responseTimeout g) s = .next t.followOn ∧
      t.tag g = .quarantined a ∧ (∀ g', g' ≠ g → t.tag g' = s.tag g') ∧ t.table = pre ++ post ∧
      t.responses = s.responses ++ [e.errResponse .media] ∧ t.flag faultSource = true ∧
      ((∃ g', g' ≠ g ∧ (s.tag g').isQuarantined = false) → t.faults = pushEntry s.faults f) ∧
      ((∀ g', g' ≠ g → (s.tag g').isQuarantined = true) → t.portStalled = true ∧
        (t.faults = pushEntry (pushEntry s.faults f) stallFault ∨
          t.faults = pushEntry (pushEntry s.faults stallFault) f)) ∧
      Keeps [.dport, .table, .drains, .responses, .faults, .notices] s t)

/-! ## Time and power -/

/-- A period's end starts the next one at TICK_PERIOD and, in RUN only, advances the age count of every OPEN region that has
not reached 65,535. A transaction whose count becomes equal to a limit that is not 0 expires on the tick: AGE_EXPIRED is set,
with NOTIFY nothing more happens, and with ABORT the transaction is aborted on the tick, ending at once with ROLLBACK_DONE or
joining the rollback queue, in ascending region number (R26, R27, R28, R29, R84).
That the elapsed time counts the periods ended, and that a region still marked due expires too, is the model's choice
(notes/assumptions/7.md, 11.md); that a group whose grant is held counts as admitted, and the order of what follows on the
same event, are its reading (notes/assumptions/12.md, 3.md). -/
def Obligations.TickAdvancesTheAgeCounts : Prop :=
  ∀ s : State, s.inReset = false →
    let counts (r : RegionId) := s.device = .run ∧ (s.region r).txn = .opened ∧ (s.region r).age < 65535
    let expires (r : RegionId) := s.device = .run ∧ (s.region r).txn = .opened ∧
      ((s.region r).expiryDue = true ∨
        counts r ∧ (s.region r).live.ageLimit ≠ 0 ∧ (s.region r).age + 1 = (s.region r).live.ageLimit)
    let aborts (r : RegionId) := expires r ∧ (s.region r).live.ageAction = .abort
    let walks (r : RegionId) := aborts r ∧ ((s.region r).records ≠ 0 ∨ s.hasBusyGroup r = true)
    ∃ t : State, exec .tick s = .next t.followOn ∧
      t.timebase = ⟨s.params.tickPeriod, s.timebase.elapsed + s.timebase.running⟩ ∧
      (∀ r, (counts r → (t.region r).age = (s.region r).age + 1) ∧ (¬counts r → (t.region r).age = (s.region r).age)) ∧
      (∀ r, ¬expires r → { t.region r with age := 0, drain := [] } = { s.region r with age := 0, drain := [] }) ∧
      (∀ r, expires r → (t.region r).expiryDue = false) ∧
      (∀ r, t.flag (ageExpired r) = true ↔ s.flag (ageExpired r) = true ∨ expires r) ∧
      (∀ r, t.flag (rollbackDone r) = true ↔ s.flag (rollbackDone r) = true ∨ aborts r ∧ ¬walks r) ∧
      (∀ r, expires r → ¬aborts r → { t.region r with age := 0, drain := [], expiryDue := false } =
        { s.region r with age := 0, drain := [], expiryDue := false }) ∧
      (∀ r, aborts r → ¬walks r →
        (t.region r).txn = .idle ∧ (t.region r).number = nextNumber (s.region r).number) ∧
      (∀ r, walks r → (t.region r).txn = .rollingBack ∧ (t.region r).sub = .queued) ∧
      (∃ joined : List RegionId, t.engine.queue = s.engine.queue ++ joined ∧ joined.Pairwise (· < ·) ∧
        ∀ r, r ∈ joined ↔ walks r) ∧
      ((∀ r, ¬expires r) → Keeps [.timebase, .regions] s t) ∧
      ((∀ r, ¬aborts r) → Keeps [.timebase, .regions, .notices] s t) ∧
      Keeps [.timebase, .regions, .drains, .directory, .log, .writer, .engine, .faults, .notices, .table, .responses] s t

/-- An expiry sets AGE_EXPIRED; with NOTIFY nothing more happens, and with ABORT the transaction ends at once with
ROLLBACK_DONE or joins the rollback queue. The expiries of one tick come in ascending region number, and without one due
nothing changes (R28, R29, R84). TICK takes every expiry of its tick; that AGE_EXPIRY is a
command too, which takes an expiry still due, after those of lower regions, is the model's choice (notes/assumptions/11.md); that a group whose grant is held counts as admitted, that an event which is
not due changes nothing, and the order of what follows on the same event, are its reading (notes/assumptions/12.md, 4.md,
3.md). -/
def Obligations.ExpiryNotifiesOrAborts : Prop :=
  ∀ (r : RegionId) (s : State), s.inReset = false →
    let due (q : RegionId) := s.device = .run ∧ (s.region q).txn = .opened ∧ (s.region q).expiryDue = true
    (¬due r ∨ (∃ q, q < r ∧ due q) → exec (.ageExpiry r) s = .next s) ∧
    (due r → (∀ q, q < r → ¬due q) → ∃ t : State, exec (.ageExpiry r) s = .next t.followOn ∧ t.flag (ageExpired r) = true ∧
      OtherRegions r s t ∧
      ((s.region r).live.ageAction = .notify →
        t.region r = { s.region r with expiryDue := false } ∧ Keeps [.regions, .notices] s t) ∧
      ((s.region r).live.ageAction = .abort →
        Keeps [.regions, .drains, .directory, .log, .writer, .engine, .faults, .notices, .table, .responses] s t ∧
        ((s.region r).records = 0 → s.hasBusyGroup r = false →
          (t.region r).txn = .idle ∧ t.flag (rollbackDone r) = true ∧ t.engine.queue = s.engine.queue) ∧
        ((s.region r).records ≠ 0 ∨ s.hasBusyGroup r = true →
          (t.region r).txn = .rollingBack ∧ (t.region r).sub = .queued ∧ t.engine.queue = s.engine.queue ++ [r])))

/-- A power-fail warning outside QUIESCING and HALTED enters QUIESCING in phase SETTLING with the entry state recorded;
every entry that is neither ISSUED nor a READY in-place write is answered POWER, the Log Writer's waiting work is dropped
and ready is withdrawn. In QUIESCING and HALTED it is not taken (R138, R139, R140). The order of the responses within the
event is the model's choice (notes/assumptions/6.md), and that the end of SETTLING, where nothing is left to drain, follows
them its reading (notes/assumptions/3.md). -/
def Obligations.PowerFailWarningStartsQuiesce : Prop :=
  ∀ s : State, InRange s → s.inReset = false →
    (s.device = .quiescing ∨ s.device = .halted → exec .powerFailWarning s = .next s) ∧
    (s.device ≠ .quiescing → s.device ≠ .halted →
      let stays : Entry → Bool := fun e => e.state = .issued ∨ e.state = .ready ∧ e.handling = some .inPlace
      let first := (s.table.filter fun e => !stays e).map fun e => e.errResponse .power
      ∃ t : State, exec .powerFailWarning s = .next t.followOn ∧ t.device = .quiescing ∧ t.powerFail.phase = .settling ∧
        t.powerFail.entry = some s.device ∧ t.powerFail.safe = s.powerFail.safe ∧ t.requestReady = false ∧
        t.writer.closing = [] ∧ t.writer.granted = none ∧ t.writer.deferred = none ∧ (∀ r, t.writer.held.get r = none) ∧
        t.log.deferred = none ∧ t.log.anchorWanted = false ∧
        (s.portStalled = false → t.powerFail.stalled = s.powerFail.stalled ∧ t.table = s.table.filter stays ∧
          t.responses = s.responses ++ first ∧ t.log.anchor = s.log.anchor ∧
          t.dport.anchorQueue.filter (fun q => q.owner = .logManager) =
            s.dport.anchorQueue.filter (fun q => q.owner = .logManager)) ∧
        (s.portStalled = true → t.powerFail.stalled = true ∧ t.table = s.table.filter (fun e => e.state = .issued) ∧
          t.responses = s.responses ++ first ++ (s.table.filter fun e => e.state = .ready ∧ e.handling = some .inPlace).map
            (fun e => e.errResponse .power) ∧ t.log.anchor = none ∧ t.dport.anchorQueue = [] ∧ t.dport.logQueue = [] ∧
          t.dport.rollQueue = []) ∧
        Keeps [.device, .powerFail, .drains, .log, .writer, .dport, .table, .responses] s t)

/-! ## The Log Writer -/

/-- The idle builder takes the head closing request before any UNDO work: the record is placed by R40 without a test of free
space, with the contents of R35, and the writes of the WRAP marker, or of the record's two blocks, are handed. U, the tails
and every region stay as they stand (R41, R66, R74). That what follows on the same event comes after it is the model's
reading (notes/assumptions/3.md). -/
def Obligations.ClosingRequestIsPlacedAndWritten : Prop :=
  ∀ (c : ClosingRequest) (rest : List ClosingRequest) (g : Geometry) (s : State), s.inReset = false →
    s.device = .run ∨ s.device = .restoring → s.writer.builder = none → s.writer.granted = none →
    s.writer.closing = c :: rest → s.log.geometry = some g → s.log.head < g.blocks → 2 ≤ g.blocks →
    ∃ (t : State) (b : Build), exec .chooseNextWork s = .next t.followOn ∧
      t.writer = { s.writer with builder := some b, closing := rest } ∧
      PlacedAt g.blocks s.log.head s.log.nextSeq 2 b.place.index b.record.sequence b.place.marker t.log.head t.log.nextSeq ∧
      b.group = none ∧
      b.record = ⟨c.kind, c.region, false, c.recovery, b.record.sequence, c.number, none, [], s.log.generation,
        c.firstIndex⟩ ∧
      t.dport.logQueue = s.dport.logQueue ++ (match b.place.marker with
        | some (i, seq) => [writeBlock .logWriter (g.base + 32 * i) (wrapBlock seq s.log.generation)]
        | none => (b.record.headerBlocks []).mapIdx fun i c =>
            writeBlock .logWriter (g.base + 32 * (b.place.index + i)) c) ∧
      { t.log with head := s.log.head, nextSeq := s.log.nextSeq, below := s.log.below } = s.log ∧
      Keeps [.log, .writer, .dport, .notices] s t

/-- The first eligible region's untaken first writes, up to eight in acceptance order, form a group; when its UNDO record is
admitted the region's record count rises, the record is placed and carries FIRST exactly when the count was 0, PENDING
directory entries go to the earliest lines while any is free, and one full-line read of each line is handed in group order
(R61, R66 to R71). Reads are counted when they are handed (notes/assumptions/18.md). That the
choice of work is a command of its own, and that what follows on the same event comes after it, is the model's reading
(notes/assumptions/3.md). -/
def Obligations.GroupIsTakenAndGranted : Prop :=
  ∀ (r : RegionId) (g : Geometry) (s : State), s.inReset = false → s.device = .run → s.writer.builder = none →
    s.writer.granted = none → s.writer.closing = [] → s.writer.deferred = none →
    InRange s → s.serveOrder.find? s.eligible = some r → s.writer.held.get r = none → s.log.geometry = some g →
    s.log.head < g.blocks → 10 ≤ g.blocks →
    let members := (s.untaken r).take 8
    let lines := members.map fun e => lineOf e.addr
    let first : Bool := (s.region r).records = 0
    s.log.admits first members.length = true →
    ∃ (t : State) (b : Build) (grp : Group), exec .chooseNextWork s = .next t.followOn ∧ t.writer.builder = some b ∧
      b.group = some grp ∧ b.stage = .reading ∧
      grp.members = members.map Entry.tag ∧ grp.lines.map GroupLine.addr = lines ∧
      (∀ l ∈ grp.lines, l.reads = 1 ∧ l.old = none) ∧ t.writer.lastServed = r ∧
      PlacedAt g.blocks s.log.head s.log.nextSeq (2 + members.length) b.place.index b.record.sequence b.place.marker
        t.log.head t.log.nextSeq ∧
      b.record.kind = .undo ∧ b.record.region = r ∧ b.record.first = first ∧ b.record.recovery = false ∧
      b.record.number = (s.region r).number ∧ b.record.lines = lines ∧ b.record.generation = s.log.generation ∧
      b.record.previous = (if first then none else (s.region r).lastIndex) ∧
      (t.region r).records = (s.region r).records + 1 ∧ (t.region r).lastIndex = some b.place.index ∧
      (t.region r).firstIndex = (if first then some b.place.index else (s.region r).firstIndex) ∧
      t.log.unresolved = (if first then s.log.unresolved + 1 else s.log.unresolved) ∧
      t.log.firstSeqs.get r = (if first then some b.record.sequence else s.log.firstSeqs.get r) ∧
      t.directory = s.directory ++ (lines.take (256 - s.directory.length)).map (fun a => ⟨r, a, false⟩) ∧
      (t.region r).saturated = ((s.region r).saturated || decide (256 - s.directory.length < lines.length)) ∧
      t.dport.logQueue = s.dport.logQueue ++ lines.map (fun a => readBlock .logWriter a) ∧
      OtherRegions r s t ∧ t.table = s.table ∧ Keeps [.regions, .directory, .log, .writer, .dport, .notices] s t

/-- A group whose record is refused, with no anchor that could reclaim space, is handled by its region's SPACE policy while
the region is OPEN: WAIT holds it, unless the transaction's own first record is at the volatile tail; FAIL answers its
members NO_SPACE and removes its PENDING entries; ABORT answers them ABORTED and aborts the transaction; in COMMITTING it is
handled as under FAIL, and the region stays as it stands (R19, R50, R75 to R78). So with a HELD group that is retried, with
a group newly taken, and with a DEFERRED group when the anchor write it waits for is verified (R49). The order of the
responses within the event is the model's choice (notes/assumptions/6.md), and that what follows on the same event comes
after it its reading (notes/assumptions/3.md). -/
def Obligations.RefusedGroupFollowsTheSpacePolicy : Prop :=
  (∀ (r : RegionId) (h : HeldGroup) (s : State), s.inReset = false → s.device = .run → s.writer.builder = none →
    s.writer.granted = none → s.writer.closing = [] → s.writer.deferred = none →
    s.serveOrder.find? s.eligible = some r → s.writer.held.get r = some h → h.group.region = r →
    s.log.admits (decide ((s.region r).records = 0)) h.group.lines.length = false → s.log.anchor = none →
    s.log.volatileTail = s.log.durableTail → ∃ t : State, exec .chooseNextWork s = .next t.followOn ∧
      t.writer.lastServed = r ∧ GroupRefused s t r h.group s.directory []) ∧
  (∀ (r : RegionId) (s : State), s.inReset = false → s.device = .run → s.writer.builder = none →
    s.writer.granted = none → s.writer.closing = [] → s.writer.deferred = none → InRange s →
    s.serveOrder.find? s.eligible = some r → s.writer.held.get r = none →
    let members := (s.untaken r).take 8
    let lines := members.map fun e => lineOf e.addr
    s.log.admits (decide ((s.region r).records = 0)) members.length = false → s.log.anchor = none →
    s.log.volatileTail = s.log.durableTail → ∃ (t : State) (grp : Group), exec .chooseNextWork s = .next t.followOn ∧
      t.writer.lastServed = r ∧ grp.region = r ∧ grp.number = (s.region r).number ∧
      grp.members = members.map Entry.tag ∧ grp.lines.map GroupLine.addr = lines ∧
      grp.tracked = lines.take (256 - s.directory.length) ∧
      (t.region r).saturated = ((s.region r).saturated || decide (256 - s.directory.length < lines.length)) ∧
      GroupRefused s t r grp (s.directory ++ grp.tracked.map fun a => ⟨r, a, false⟩) [.regions, .directory]) ∧
  (∀ (g : DownTag) (d : Line) (a : AnchorWrite) (grp : Group) (s : State), s.inReset = false → s.device = .run →
    VerifiesAnchor s g d a → a.purpose = .reclaim → s.writer.deferred = some grp →
    (s.anchored a).log.admits (decide ((s.region grp.region).records = 0)) grp.lines.length = false →
    s.log.volatileTail = a.tail → ∃ t : State, exec (.downstreamResponse g true d) s = .next t.followOn ∧
      t.tag g = .free ∧ t.log.durableTail = a.tail ∧ GroupRefused s t grp.region grp s.directory [.dport, .notices])

/-- The last good read-back of an UNDO record makes it durable: the builder is IDLE, the group's directory entries become
DURABLE, and its members waiting in WAIT_LOG become READY in-place writes, in no other way (R73, R102). A COMMIT record made
durable completes its commit and an ABORT record its walk: the transaction is resolved, the region returns to IDLE with the
next number, and COMMIT_DONE, or ROLLBACK_DONE with the engine IDLE, is set (R21, R43, R44, R94). That what follows on the
same event, such as the next walk, comes after it is the model's reading (notes/assumptions/3.md). -/
def Obligations.VerifiedRecordReleasesItsGroup : Prop :=
  ∀ (g : DownTag) (d : Line) (b : Build) (u : VerifiedUnit) (a : Nat) cls op timer at_ (s : State),
    s.inReset = false → s.device = .run ∨ s.device = .restoring →
    s.tag g = .outstanding .logWriter cls op a timer at_ true → s.writer.builder = some b → b.stage = .writing u →
    u.readBack = true → u.left = 1 → u.failed = false → (a, d) ∈ u.blocks →
    (∀ grp, b.group = some grp → ∃ t : State, exec (.downstreamResponse g true d) s = .next t.followOn ∧
      t.tag g = .free ∧ t.writer = { s.writer with builder := none } ∧
      t.directory = s.directory.map (fun x =>
        if x.region = grp.region ∧ x.line ∈ grp.tracked then { x with durable := true } else x) ∧
      t.table = s.table.map (fun e =>
        if e.tag ∈ grp.members ∧ e.state = .waitLog then { e with state := .ready, handling := some .inPlace } else e) ∧
      Keeps [.writer, .directory, .table, .dport] s t) ∧
    (b.group = none →
      let r := b.record.region
      let closed (t : State) := t.tag g = .free ∧ (t.region r).txn = .idle ∧ (t.region r).sub = .none ∧
        (t.region r).number = nextNumber (s.region r).number ∧ (t.region r).records = (s.region r).records ∧
        t.directory = s.directory.filter (fun d => d.region ≠ r) ∧ t.writer.builder = none ∧
        t.writer.closing = s.writer.closing ∧ Resolved s.log.ring s t r ∧ OtherRegions r s t
      (b.record.kind = .commit → (s.region r).records ≠ 0 → s.log.geometry ≠ none → ∃ t : State,
        exec (.downstreamResponse g true d) s = .next t.followOn ∧ closed t ∧ t.flag (commitDone r) = true ∧
        Keeps [.regions, .drains, .directory, .log, .writer, .dport, .faults, .notices, .table, .responses] s t) ∧
      (b.record.kind = .abort → s.log.geometry ≠ none → ∃ t : State,
        exec (.downstreamResponse g true d) s = .next t.followOn ∧ closed t ∧ t.flag (rollbackDone r) = true ∧
        t.engine = ⟨s.engine.queue, none, false, [], none, none, [], [], none, s.engine.walked, none⟩ ∧
        Keeps [.regions, .drains, .directory, .log, .writer, .engine, .dport, .faults, .notices, .table, .responses] s t))

/-- A failed attempt on the builder's record is followed by a rewrite of every block at the same place while the rewrites
made are fewer than RETRY_LIMIT; otherwise LOG_WRITE is pushed with the attempts made, and in RUN the device enters
LOG_FAULT: every waiting write is answered LOG_FAULT and the Log Writer and the Rollback Engine are IDLE with empty queues
(R72, R103, R105, R107, R108). That what follows on the same event comes after it is the model's reading
(notes/assumptions/3.md). -/
def Obligations.FailedRecordIsRewrittenOrStopsTheLog : Prop :=
  ∀ (g : DownTag) (d : Line) (b : Build) (u : VerifiedUnit) (a : Nat) cls op timer at_ (s : State),
    s.inReset = false → s.device = .run → s.tag g = .outstanding .logWriter cls op a timer at_ true →
    s.writer.builder = some b → b.stage = .writing u → u.left = 1 →
    (u.attempts - 1 < s.params.retryLimit → ∃ t : State, exec (.downstreamResponse g false d) s = .next t.followOn ∧
      t.writer.builder = some { b with stage := .writing ⟨u.blocks, u.attempts + 1, false, u.blocks.length, false⟩ } ∧
      t.dport.logQueue = s.dport.logQueue ++ u.blocks.map (fun x => writeBlock .logWriter x.1 x.2) ∧
      t.tag g = .free ∧ Keeps [.writer, .dport] s t) ∧
    (s.params.retryLimit ≤ u.attempts - 1 → ∃ t : State, exec (.downstreamResponse g false d) s = .next t.followOn ∧
      t.device = .logFault ∧ t.flag faultSource = true ∧
      ((∀ r, (s.region r).pendingApply ≠ .atClose) → t.faults =
        pushEntry s.faults ⟨.logWrite, some b.record.region, none, some b.record.sequence, u.attempts, false⟩) ∧
      t.writer.builder = none ∧ t.writer.closing = [] ∧ t.writer.granted = none ∧ t.writer.deferred = none ∧
      (∀ r, t.writer.held.get r = none) ∧ t.engine.walk = none ∧ t.engine.queue = [] ∧
      (∀ e ∈ t.table, e.state ≠ .waitLog ∧ e.state ≠ .waitSpace) ∧
      (∀ e ∈ s.table, e.state = .waitLog ∨ e.state = .waitSpace → e.errResponse .logFault ∈ t.responses) ∧
      (∀ r, (t.region r).txn = .idle ∨ (t.region r).txn = .faulted) ∧ t.log.geometry = s.log.geometry)

/-! ## Commits, walks and anchors -/

/-- When a commit's drain set is empty its COMMIT record becomes due at the Log Writer, and with no record the commit
completes at once with COMMIT_DONE; before that nothing happens (R20, R21, R65). That this is a step of its own, changes
nothing when it is not due, and comes before what follows on the same event, is the model's reading (notes/assumptions/3.md,
4.md). -/
def Obligations.CommitDrainBringsTheRecordPhase : Prop :=
  ∀ (r : RegionId) (s : State), s.inReset = false →
    let drained := s.device = .run ∧ (s.region r).txn = .committing ∧ (s.region r).drain = [] ∧
      (s.region r).recordPhase = false
    (¬drained → exec (.commitDrainComplete r) s = .next s) ∧
    (drained → (s.region r).records ≠ 0 → exec (.commitDrainComplete r) s = .next
      (State.followOn ((s.updRegion r fun x => { x with recordPhase := true }).updWriter fun w =>
        { w with closing := w.closing ++
          [⟨r, (s.region r).number, .commit, (s.region r).firstIndex.getD 0, false⟩] }))) ∧
    (drained → (s.region r).records = 0 → ∃ t : State, exec (.commitDrainComplete r) s = .next t.followOn ∧
      (t.region r).txn = .idle ∧
      (t.region r).number = nextNumber (s.region r).number ∧ t.flag (commitDone r) = true ∧
      t.directory = s.directory.filter (fun d => d.region ≠ r) ∧ t.writer = s.writer ∧ OtherRegions r s t ∧
      Keeps [.regions, .drains, .directory, .faults, .notices, .table, .responses] s t)

/-- The walk of the region at the head of the queue starts at its last-record index with the drain set of R86, in DRAINING,
on the event that leaves the engine IDLE with a region queued; it passes to WALKING, with its first two header reads handed,
on the event that leaves the drain set empty and no QUARANTINED tag in the enabled region's window (R85, R86, R88). That
members of a group whose grant is held are in the drain set (notes/assumptions/12.md), the order of the two reads (33.md),
that the two are commands too, which change nothing when they are not due (4.md), and their place in what follows on an event
(3.md) are the model's reading. -/
def Obligations.WalkStartsAndDrains : Prop :=
  ∀ (r : RegionId) (s : State),
    (¬WalkMayStart s ∨ s.engine.queue = [] → exec .walkStart s = .next s) ∧
    (∀ rest x, WalkMayStart s → s.engine.queue = r :: rest → (s.region r).lastIndex = some x →
      let drain := if (s.region r).live.enable then (s.table.filter fun e =>
          ((e.state = .ready ∨ e.state = .issued) ∧ (s.region r).live.holds e.addr = true) ∨ e.tag ∈ s.busyMembers r).map
            Entry.tag else []
      ∃ t : State, exec .walkStart s = .next t ∧ (NoneStarts s s.table → s.followOn = t.followOn) ∧
        t.engine.queue = rest ∧ t.engine.walk = some r ∧ t.engine.drain = drain ∧
        t.engine.index = some x ∧ t.engine.walked = 0 ∧ t.engine.header = none ∧ t.engine.buffer = [] ∧
        (t.engine.recovery = true ↔ s.device = .restoring) ∧
        (drain = [] → ¬WindowQuarantined s r → (t.region r).sub = .walking ∧ HeaderReadsHanded s t x) ∧
        (drain ≠ [] ∨ WindowQuarantined s r → (t.region r).sub = .draining ∧ t.dport = s.dport) ∧
        { t.region r with sub := .none } = { s.region r with sub := .none } ∧ OtherRegions r s t ∧
        Keeps [.regions, .drains, .engine, .dport] s t) ∧
    (∀ x, s.inReset = false → s.device = .run ∨ s.device = .restoring → s.engine.walk = some r → s.engine.index = some x →
      (s.region r).sub = .draining →
      (s.engine.drain ≠ [] ∨ WindowQuarantined s r → exec .walkDrainComplete s = .next s) ∧
      (s.engine.drain = [] → ¬WindowQuarantined s r → ∃ t : State, exec .walkDrainComplete s = .next t ∧
        (NoneStarts s s.table → s.followOn = t.followOn) ∧ t.region r = { s.region r with sub := .walking } ∧
        HeaderReadsHanded s t x ∧ OtherRegions r s t ∧ Keeps [.regions, .engine, .dport] s t))

/-- When both header blocks of a record are in it is checked: one that passes Table 4-2 has its data blocks read, and once
they are in and their CRC agrees the last line is written; one that fails ends the walk with ROLLBACK_READ, as exhausted
reads do, the region FAULTED and the engine IDLE (R88, R89, R95). When the line being restored compares equal, the next
lower line is written; after line 0 the record counts as walked and the walk reads the record before it, or, the record
being FIRST, closes and hands the Log Writer its ABORT request. When the attempts on a line are exhausted ROLLBACK_WRITE is
pushed and the walk ends so too (R90, R91, R93, R96). The order of reads handed together (notes/assumptions/33.md), that a
failed walk's other reads are discarded (35.md), and that what follows on the event comes after it (3.md) are the model's
reading. -/
def Obligations.RestoredLineLeadsTheWalkOn : Prop :=
  ∀ (g : DownTag) (d : Line) (r : RegionId) (x n a : Nat) cls op timer at_ (s : State),
    s.inReset = false → s.device = .run ∨ s.device = .restoring → s.tag g = .outstanding .rollback cls op a timer at_ true →
    s.engine.walk = some r → s.engine.index = some x →
    let at_block (i : Nat) := s.blockAddr ((x + i) % s.log.ring)
    let checkFault (h : Header) : FaultEntry :=
      ⟨.rollbackRead, some r, some (at_block 0), if h.crcGood then some h.sequence else none, 1, false⟩
    (∀ b0 m, s.engine.header = none → s.engine.blocks = [⟨m, some b0⟩, ⟨n, none⟩] → 2 ≤ s.log.ring → a = at_block 1 →
      let h := readHeader b0 d
      (PassesCheck s r x h → ∃ t : State, exec (.downstreamResponse g true d) s = .next t.followOn ∧
        t.engine.header = some h ∧ t.dport.rollQueue = s.dport.rollQueue ++
          (List.range h.count).map (fun i => readBlock .rollback (at_block (2 + i))) ∧ Keeps [.engine, .dport] s t) ∧
      (¬PassesCheck s r x h → ∃ t : State, exec (.downstreamResponse g true d) s = .next t.followOn ∧
        WalkFailed s t r (checkFault h)) ∧
      (n - 1 < s.params.retryLimit → ∃ t : State, exec (.downstreamResponse g false d) s = .next t.followOn ∧
        t.dport.rollQueue = s.dport.rollQueue ++ [readBlock .rollback a] ∧ Keeps [.engine, .dport] s t) ∧
      (s.params.retryLimit ≤ n - 1 → ∃ t : State, exec (.downstreamResponse g false d) s = .next t.followOn ∧
        WalkFailed s t r ⟨.rollbackRead, some r, some a, none, n, false⟩)) ∧
    (∀ h pre b0 b1 data, s.engine.header = some h → s.engine.restore = none → s.engine.blocks = pre ++ [⟨n, none⟩] →
      pre.map BlockRead.contents = (b0 :: b1 :: data).map some → data.length + 1 = h.count →
      x + 2 + h.count ≤ s.log.ring → a = at_block (1 + h.count) →
      (dataCrc (data ++ [d]) = h.dataCrc → ∃ t : State, exec (.downstreamResponse g true d) s = .next t.followOn ∧
        t.engine.lineIndex = some data.length ∧ t.engine.buffer = data ++ [d] ∧ t.dport.rollQueue = s.dport.rollQueue ++
          [writeBlock .rollback (h.lines.getD data.length 0) d] ∧ Keeps [.engine, .dport] s t) ∧
      (dataCrc (data ++ [d]) ≠ h.dataCrc → ∃ t : State, exec (.downstreamResponse g true d) s = .next t.followOn ∧
        WalkFailed s t r (checkFault h))) ∧
    (∀ h i u, s.engine.header = some h → s.engine.lineIndex = some i → s.engine.restore = some u → u.left = 1 →
      (u.readBack = true → u.failed = false → (a, d) ∈ u.blocks →
        ∃ t : State, exec (.downstreamResponse g true d) s = .next t.followOn ∧ t.tag g = .free ∧
        (∀ j, i = j + 1 → t.engine.lineIndex = some j ∧
          t.dport.rollQueue = s.dport.rollQueue ++ [writeBlock .rollback (h.lines.getD j 0) (s.engine.buffer.getD j 0)] ∧
          t.engine.walked = s.engine.walked ∧ Keeps [.engine, .dport] s t) ∧
        (i = 0 → t.engine.walked = s.engine.walked + 1 ∧ t.engine.walk = some r ∧ t.engine.restore = none ∧
          (h.first = false → t.engine.index = some h.previous ∧ t.engine.header = none ∧ t.engine.buffer = [] ∧
            HeaderReadsHanded s t h.previous ∧ Keeps [.engine, .dport] s t) ∧
          (h.first = true → t.region r = { s.region r with sub := .closing } ∧
            t.writer = { s.writer with closing := s.writer.closing ++
              [⟨r, (s.region r).number, .abort, (s.region r).firstIndex.getD 0, s.engine.recovery⟩] } ∧
            OtherRegions r s t ∧ Keeps [.regions, .engine, .writer, .dport] s t))) ∧
      (s.params.retryLimit ≤ u.attempts - 1 → ∃ t : State, exec (.downstreamResponse g false d) s = .next t.followOn ∧
        WalkFailed s t r ⟨.rollbackWrite, some r, some (h.lines.getD i 0), some h.sequence, u.attempts, false⟩))

/-- The FORMAT anchor writes begin once the entries FORMAT waits for are DONE, and recovery ends with its anchor write once
the queue is empty and the engine IDLE, or has it follow an anchor write in progress (R52, R57, R130, R134). A verified
anchor write makes its slot current and its snapshot the durable tail, makes every HELD group retry-due, tests a deferred
admission again, and starts the anchor that is wanted or waited for, FORMAT's second, or RUN (R48, R49, R50, R53); a failed
attempt is rewritten while the limit allows, and otherwise ANCHOR_WRITE is pushed and the device enters LOG_FAULT (R103,
R107). That an event which is not due changes nothing (notes/assumptions/4.md), that a recovery anchor waits for an anchor
write in progress of any kind (20.md), and the order of what follows on an event (3.md), is the model's reading. -/
def Obligations.FormatAndRecoveryAnchorsStart : Prop :=
  ∀ (g : Geometry) (s : State), s.inReset = false → s.log.geometry = some g →
    (s.device = .formatting → s.log.formatPending = true → s.log.formatDrain = [] → ∃ t,
      exec .formatAnchorWrites s = .next t ∧ AnchorStarted s t .formatFirst g ∧ t.log.formatPending = false ∧
      Keeps [.log, .dport] s t) ∧
    (s.device ≠ .formatting ∨ s.log.formatPending = false ∨ s.log.formatDrain ≠ [] →
      exec .formatAnchorWrites s = .next s) ∧
    (s.device = .restoring → s.engine.queue = [] → s.engine.walk = none →
      (s.log.anchor = none → ∃ t : State, exec .recoveryEnd s = .next t ∧ (NoneStarts s s.table → s.followOn = t.followOn) ∧
        AnchorStarted s t .recovery g ∧ Keeps [.log, .dport] s t) ∧
      (∀ a, s.log.anchor = some a → a.purpose ≠ .recovery →
        exec .recoveryEnd s = .next { s with log := { s.log with recoveryWanted := true } })) ∧
    (s.device ≠ .restoring ∨ s.engine.queue ≠ [] ∨ s.engine.walk ≠ none → exec .recoveryEnd s = .next s) ∧
    (∀ (gt : DownTag) (d : Line) (a : AnchorWrite), VerifiesAnchor s gt d a →
      ∃ t : State, exec (.downstreamResponse gt true d) s = .next t.followOn ∧ t.tag gt = .free ∧
      t.log.slot = some a.slot ∧ t.log.anchorSeq = a.sequence ∧ t.log.durableTail = a.tail ∧
      (s.writer.deferred = none →
        (∀ q, t.writer.held.get q = (s.writer.held.get q).map fun h => { h with retryDue := true }) ∧
        (s.log.anchorWanted = false → s.log.recoveryWanted = false →
          (a.purpose = .reclaim ∨ s.device = .quiescing ∧ a.purpose ≠ .closing → t.log.anchor = none ∧
            Keeps [.log, .writer, .dport, .notices] s t) ∧
          (a.purpose = .formatFirst → s.device = .formatting → AnchorStarted (s.anchored a) t .formatSecond g ∧
            Keeps [.log, .writer, .dport, .notices] s t) ∧
          (a.purpose = .formatSecond ∧ s.device = .formatting ∨ a.purpose = .recovery ∧ s.device = .restoring →
            t.device = .run ∧ t.log.anchor = none ∧ (a.purpose = .recovery → t.flag started = true) ∧
            Keeps [.device, .log, .writer, .dport, .notices] s t)) ∧
        (a.purpose = .reclaim → s.device = .restoring → s.log.recoveryWanted = true →
          AnchorStarted (s.anchored a) t .recovery g ∧ t.log.recoveryWanted = false ∧ t.log.anchorWanted = false) ∧
        (a.purpose = .reclaim → s.device = .run → s.log.anchorWanted = true → t.log.anchorWanted = false ∧
          let distance := ringDistance g.blocks a.tail s.log.volatileTail
          (0 < distance → s.params.anchorStride ≤ distance → AnchorStarted (s.anchored a) t .reclaim g) ∧
          (distance = 0 ∨ distance < s.params.anchorStride → t.log.anchor = none))) ∧
      (∀ grp, s.writer.deferred = some grp → a.purpose = .reclaim → s.device = .run → s.log.anchorWanted = false →
        let first : Bool := (s.region grp.region).records = 0
        ((s.anchored a).log.admits first grp.lines.length = true → t.writer.deferred = none ∧ t.log.deferred = none ∧
          (t.region grp.region).records = (s.region grp.region).records + 1 ∧
          t.log.unresolved = (if first then s.log.unresolved + 1 else s.log.unresolved) ∧
          (s.writer.builder = none → ∃ b x, t.writer.builder = some b ∧ b.group = some x ∧ x.members = grp.members ∧
            t.dport.logQueue = s.dport.logQueue ++ grp.lines.map fun l => readBlock .logWriter l.addr) ∧
          (∀ b, s.writer.builder = some b → t.writer.builder = some b ∧
            ∃ b', t.writer.granted = some b' ∧ b'.group = some grp)) ∧
        ((s.anchored a).log.admits first grp.lines.length = false → a.tail ≠ s.log.volatileTail →
          t.writer.deferred = some grp ∧ t.log.deferred = some ⟨grp.region, grp.lines.length⟩ ∧
          AnchorStarted (s.anchored a) t .reclaim g))) ∧
    (∀ (gt : DownTag) (d : Line) (a : AnchorWrite), FailsAnchor s gt a →
      (a.unit.attempts - 1 < s.params.retryLimit → ∃ t : State, exec (.downstreamResponse gt false d) s = .next t.followOn ∧
        t.log.anchor = some { a with unit := ⟨a.unit.blocks, a.unit.attempts + 1, false, a.unit.blocks.length, false⟩ } ∧
        t.dport.anchorQueue = s.dport.anchorQueue ++ a.unit.blocks.map (fun x => writeBlock .logManager x.1 x.2) ∧
        Keeps [.log, .dport] s t) ∧
      (s.params.retryLimit ≤ a.unit.attempts - 1 → ∃ t : State, exec (.downstreamResponse gt false d) s = .next t.followOn ∧
        t.log.anchor = none ∧ t.log.slot = s.log.slot ∧ t.log.anchorSeq = s.log.anchorSeq ∧
        t.log.durableTail = s.log.durableTail ∧ t.flag faultSource = true ∧
        ((∀ r, (s.region r).pendingApply ≠ .atClose) → t.faults = pushEntry s.faults
          ⟨.anchorWrite, none, some (s.memorySize - 64 + 32 * a.slot.val), none, a.unit.attempts, false⟩) ∧
        (s.device = .run ∨ s.device = .restoring ∨ s.device = .formatting → t.device = .logFault) ∧
        (s.device = .restoring → t.flag started = true) ∧
        (s.device = .formatting ∨ s.device = .logFault ∨ s.device = .quiescing ∧ a.purpose ≠ .closing →
          Keeps [.device, .log, .dport, .faults, .notices] s t) ∧
        (s.device = .logFault ∨ s.device = .quiescing ∧ a.purpose ≠ .closing → t.device = s.device)))

/-- When SETTLING has ended the closing anchor is written if the entry state was RUN or RESTORING, the volatile tail is
ahead of the durable tail and the port did not stall; otherwise the part is HALTED at once, with SAFE asserted. So it does
on the event that ends SETTLING, and the closing anchor halts the part when it is verified, or exhausted with ANCHOR_WRITE
(R144, R145, R146, R147). That the class queues are empty too (notes/assumptions/15.md), that an event which is not due
changes nothing (4.md), and its place in what follows on an event (3.md) are the model's reading. -/
def Obligations.SettlingEndAnchorsOrHalts : Prop :=
  ∀ s : State, s.inReset = false →
    let due := (s.powerFail.entry = some .run ∨ s.powerFail.entry = some .restoring) ∧
      s.log.volatileTail ≠ s.log.durableTail ∧ s.powerFail.stalled = false
    let ends (t : State) := exec .settlingEnd s = .next t ∧ s.followOn = t
    let halts (t : State) := t.device = .halted ∧ t.powerFail = { s.powerFail with phase := .halted, safe := true } ∧
      t.safe = true
    (¬(s.device = .quiescing ∧ s.powerFail.phase = .settling ∧ Settled s) → exec .settlingEnd s = .next s) ∧
    (s.device = .quiescing → s.powerFail.phase = .settling → Settled s →
      (∀ g, s.log.geometry = some g → due → ∃ t, ends t ∧ t.device = .quiescing ∧
        t.powerFail = { s.powerFail with phase := .anchoring } ∧ AnchorStarted s t .closing g ∧
        Keeps [.powerFail, .log, .dport] s t) ∧
      (¬due → ∃ t, ends t ∧ halts t ∧ Keeps [.device, .powerFail] s t)) ∧
    (∀ (gt : DownTag) (d : Line) (a : AnchorWrite), s.device = .quiescing → a.purpose = .closing →
      (VerifiesAnchor s gt d a → s.writer.deferred = none → s.log.anchorWanted = false → ∃ t : State,
        exec (.downstreamResponse gt true d) s = .next t.followOn ∧ halts t ∧ t.log.slot = some a.slot ∧
        t.log.anchorSeq = a.sequence ∧ t.log.durableTail = a.tail ∧
        Keeps [.device, .powerFail, .log, .writer, .dport, .notices] s t) ∧
      (FailsAnchor s gt a → s.params.retryLimit ≤ a.unit.attempts - 1 → ∃ t : State,
        exec (.downstreamResponse gt false d) s = .next t.followOn ∧ halts t ∧ t.log.durableTail = s.log.durableTail ∧
        t.faults = pushEntry s.faults
          ⟨.anchorWrite, none, some (s.memorySize - 64 + 32 * a.slot.val), none, a.unit.attempts, false⟩ ∧
        Keeps [.device, .powerFail, .log, .dport, .faults, .notices] s t))

/-! ## Faults, admission and start-up -/

/-- A push joins the tail of a Fault Queue of fewer than four entries with OVERWRITTEN no, and otherwise replaces the newest
entry and carries OVERWRITTEN yes; the older entries keep their places and FAULT is set pending (R114). -/
def Obligations.FaultPushKeepsTheOldestEntries : Prop :=
  ∀ (e : FaultEntry) (s : State), s.faults.length ≤ 4 → e.overwritten = false →
    (s.faults.length < 4 → (s.pushFault e).faults = s.faults ++ [e]) ∧
    (s.faults.length = 4 → (s.pushFault e).faults = s.faults.take 3 ++ [{ e with overwritten := true }]) ∧
    (∀ n, (s.pushFault e).flag n = (s.flag n || n == faultSource)) ∧ Keeps [.faults, .notices] s (s.pushFault e)

/-- A granted admission leaves the reserve whole: after the placement free space is what it was less the record and the wrap
waste, and at least 2U′ + 1 (R40, R46, R47). -/
def Obligations.AdmissionKeepsTheReserve : Prop :=
  ∀ (l : LogState) (first : Bool) (lines : Nat), l.head < l.ring → l.durableTail < l.ring → l.admits first lines = true →
    let after := { l with head := l.headAfter (2 + lines) }
    after.head < l.ring ∧ 2 * (if first then l.unresolved + 1 else l.unresolved) + 1 ≤ after.free ∧
      after.free = l.free - (2 + lines) - (if l.head + (2 + lines) ≤ l.ring then 0 else l.ring - l.head)

/-- When the second anchor slot is answered OK: with neither slot valid start-up ends in NOLOG; otherwise the log is loaded
from the valid slot, from the one ahead when both are, or from slot 1 when both carry one sequence, and the scan reads the
block at its durable tail (R51, R119, R121, R135). At a scan position the first block, the header and the data blocks are
judged in turn by Table 6-4 and Table 6-5; a valid record or marker moves the scan on, and the first invalid position is the
head: U, the tails, the first-record sequences and the regions are set from the trackers, the regions with a candidate
queued, and the device enters RESTORING (R123 to R130). When the reads of a block are exhausted RECOVERY_READ is pushed, the
regions with a candidate are FAULTED and start-up ends in LOG_FAULT (R128). The order of reads handed together
(notes/assumptions/33.md) and of what follows on an event (3.md), and that an exhausted position's other reads are discarded
(35.md), are the model's reading. -/
def Obligations.AnchorSelectionStartsTheScan : Prop :=
  (∀ (g : DownTag) (slot other : Fin 2) (d d' : Line) (n : Nat) cls op timer at_ (s : State), s.inReset = false →
    s.device = .start → slot ≠ other → s.startup.slots.get other = ⟨n, .read d'⟩ →
    s.tag g = .outstanding .startup cls op (s.memorySize - 64 + 32 * slot.val) timer at_ true →
    let taken (i : Fin 2) (b : Line) := ∃ t : State, exec (.downstreamResponse g true d) s = .next t.followOn ∧
      t.device = .scanning ∧
      t.log.geometry = some ⟨(readAnchor b).base, (readAnchor b).size⟩ ∧ t.log.generation = (readAnchor b).generation ∧
      t.log.slot = some i ∧ t.log.anchorSeq = (readAnchor b).sequence ∧ t.log.durableTail = (readAnchor b).tail ∧
      t.startup.position = (readAnchor b).tail ∧ t.startup.expected = (readAnchor b).tailSeq ∧ t.startup.distance = 0 ∧
      (∀ r, t.startup.trackers.get r = ⟨none, none⟩) ∧
      t.dport.rollQueue = s.dport.rollQueue ++ [readBlock .startup ((readAnchor b).base + 32 * (readAnchor b).tail)] ∧
      Keeps [.device, .log, .startup, .dport] s t
    let valid := anchorValid s.memorySize
    (valid d = false → valid d' = false → ∃ t : State, exec (.downstreamResponse g true d) s = .next t.followOn ∧
      t.device = .nolog ∧ t.flag started = true ∧ Keeps [.device, .startup, .dport, .notices] s t) ∧
    (valid d = true → valid d' = false → taken slot d) ∧ (valid d = false → valid d' = true → taken other d') ∧
    (valid d = true → valid d' = true →
      (sequenceAhead (readAnchor d).sequence (readAnchor d').sequence = true → taken slot d) ∧
      (sequenceAhead (readAnchor d').sequence (readAnchor d).sequence = true → taken other d') ∧
      ((readAnchor d).sequence = (readAnchor d').sequence → (slot = 1 → taken slot d) ∧ (slot = 0 → taken other d')))) ∧
  (∀ (g : DownTag) (d : Line) (before : List Line) (n : Nat) (s : State), s.log.geometry ≠ none →
    BringsScanBlock s g before n →
    let p := s.startup.position
    let ended (t : State) := ScanEnded s t p s.startup.expected s.startup.trackers
    let reads (t : State) (from_ count : Nat) := t.dport.rollQueue = s.dport.rollQueue ++
        (List.range count).map (fun i => readBlock .startup (s.blockAddr (p + from_ + i))) ∧
      t.startup = { s.startup with blocks := t.startup.blocks } ∧ Keeps [.startup, .dport] s t
    (∃ t : State, exec (.downstreamResponse g true d) s = .next t.followOn ∧
      (before = [] → blockKind d = 4 →
        (WrapPasses s p d → ScanAt s t 0 (s.startup.distance + (s.log.ring - p)) (s.startup.expected + 1)
          s.startup.trackers) ∧ (¬WrapPasses s p d → ended t)) ∧
      (before = [] → blockKind d = 1 ∨ blockKind d = 2 ∨ blockKind d = 3 →
        (p + 1 = s.log.ring → ended t) ∧ (p + 1 ≠ s.log.ring → reads t 1 1)) ∧
      (before = [] → blockKind d = 0 ∨ 4 < blockKind d → ended t) ∧
      (∀ a, before = [a] → let h := readHeader a d
        (¬HeaderPasses s p h → ended t) ∧ (HeaderPasses s p h → h.count ≠ 0 → reads t 2 h.count) ∧
        (∀ r : RegionId, HeaderPasses s p h → h.region = r.val → h.count = 0 → RecordJudged s t h r 2)) ∧
      (∀ a b data, before = a :: b :: data → let h := readHeader a b
        (dataCrc (data ++ [d]) ≠ h.dataCrc → ended t) ∧
        (∀ r : RegionId, dataCrc (data ++ [d]) = h.dataCrc → h.region = r.val → RecordJudged s t h r (2 + h.count)))) ∧
    (n - 1 < s.params.retryLimit → ∃ t : State, exec (.downstreamResponse g false d) s = .next t.followOn ∧
      reads t before.length 1) ∧
    (s.params.retryLimit ≤ n - 1 → ∃ t : State, exec (.downstreamResponse g false d) s = .next t.followOn ∧
      t.device = .logFault ∧ t.flag started = true ∧ t.flag faultSource = true ∧ t.log.head = p ∧
      t.log.nextSeq = s.startup.expected ∧ t.faults = pushEntry s.faults
        ⟨.recoveryRead, none, some (s.blockAddr (p + before.length)), some s.startup.expected, n, false⟩ ∧
      (∀ r c, (s.startup.trackers.get r).candidate = some c → (t.region r).txn = .faulted ∧ (t.region r).sub = .none ∧
        (t.region r).number = c.number ∧ (t.region r).records = c.records ∧
        (t.region r).firstIndex = some c.firstIndex ∧ (t.region r).lastIndex = some c.lastIndex) ∧
      (∀ r, (s.startup.trackers.get r).candidate = none → (t.region r).txn = .idle) ∧
      Keeps [.device, .regions, .drains, .log, .startup, .dport, .faults, .notices] s t))

/-- What the part writes to the log reads back as it was built: a record's two header blocks as their header with a good
CRC, a WRAP marker as kind 4 with its sequence and generation, and an anchor block as its contents, valid by R51 (R36, R37,
R51, R194, R195). The CRC gives R37's value for the digits 1 to 9. -/
def Obligations.LogContentsReadBack : Prop :=
  (∀ (r : LogRecord) (data : List Line), r.lines.length ≤ 8 → (∀ a ∈ r.lines, a < 2 ^ 32) → r.firstIndex < 2 ^ 32 →
    (∀ x, r.previous = some x → x < 2 ^ 32) → ∃ a b, r.headerBlocks data = [a, b] ∧
      readHeader a b = r.shown (if data = [] then 0 else crc32 (32 * data.length) (joinBlocks data))) ∧
  (∀ seq generation : Word32, let v := (wrapBlock seq generation).toNat
    blockKind (wrapBlock seq generation) = 4 ∧ fieldAt v 4 4 = seq.toNat ∧ fieldAt v 8 4 = generation.toNat ∧
      BitVec.ofNat 32 (fieldAt v 28 4) = crc32 28 (fieldAt v 0 28)) ∧
  (∀ (seq generation tailSeq : Word32) (g : Geometry) (tail memory : Nat), memory ≤ 2 ^ 24 → generation ≠ 0 →
    g.base % 4096 = 0 → g.size % 4096 = 0 → 8192 ≤ g.size → g.size ≤ 2097152 → g.base + g.size ≤ memory - 64 →
    tail < g.blocks →
    anchorValid memory (anchorBlock seq g generation tail tailSeq) = true ∧
      readAnchor (anchorBlock seq g generation tail tailSeq) = ⟨seq, g.base, g.size, generation, tail, tailSeq⟩) ∧
  crc32 9 0x393837363534333231 = 0xCBF43926

/-! ## Laws of the part -/

/-- The part as a reset leaves it, for every memory size and either level of SCS_N, is in the ranges and under the laws that
the statements below say every step keeps. `State.reset` is it with MSIZE code 0 and SCS_N deasserted, which is the model's
choice (notes/assumptions/2.md). -/
def Obligations.ResetStateObeysTheLaws : Prop :=
  (∀ (msize : Fin 4) (selected : Bool) (pending : List Instr), let s := State.afterReset msize selected pending
    InRange s ∧ PowerLaw s ∧ DirectoryLaw s ∧ WindowLaw s ∧ LineLaw s ∧ NothingDue s ∧
      ∀ r, (s.region r).expiryDue = false) ∧
  State.reset = State.afterReset 0 false []

/-- Every step keeps the part's queues, tables and settings in their ranges (R2, R27, R60, R113, R152, R165, R174, R176,
R191). -/
def Obligations.EveryStepKeepsTheRanges : Prop :=
  ∀ s t : State, InRange s → step s = .next t → InRange t

/-- Every step keeps the Power-Fail Controller and the Line Directory in agreement with the device and the regions, and only
reset leaves HALTED (R60, R138, R147, R189). -/
def Obligations.EveryStepKeepsThePowerAndDirectoryLaws : Prop :=
  (∀ s t : State, PowerLaw s → step s = .next t → PowerLaw t) ∧
  (∀ s t : State, DirectoryLaw s → step s = .next t → DirectoryLaw t) ∧
  (∀ (c : Instr) (s t : State), s.device = .halted → (∀ m b, c ≠ .resetRelease m b) → exec c s = .next t →
    t.device = .halted)

/-- Every step keeps the live windows of enabled regions apart from one another, from the log area and from the anchor
blocks, and the log area in its place and size (R5, R32, R55). -/
def Obligations.EveryStepKeepsTheWindowsApart : Prop :=
  ∀ s t : State, WindowLaw s → step s = .next t → WindowLaw t

/-- Every step keeps same-line order: of two entries for one line the younger has not started (R155). And no step leaves
undone what the rules place on its event: an entry that may start, a walk or the end of its drain, the recovery anchor, the
end of SETTLING (R85, R86, R130, R144, R155), or an expiry of a tick, which is taken on that tick (R28). That SETTLING waits
for the class queues too and that a recovery anchor waits for any anchor write in progress is the model's reading
(notes/assumptions/15.md, 20.md), and the mark of an expiry to be taken is its own field (notes/assumptions/11.md). -/
def Obligations.EveryStepKeepsSameLineOrder : Prop :=
  (∀ s t : State, InRange s → LineLaw s → step s = .next t → LineLaw t) ∧
  (∀ s t : State, InRange s → NothingDue s → step s = .next t → NothingDue t) ∧
  (∀ s t : State, (∀ r, (s.region r).expiryDue = false) → step s = .next t → ∀ r, (t.region r).expiryDue = false)

/-- Every request the part takes from the host and does not drop is answered exactly once: outside reset, the responses
given and the entries in the table under a tag grow, taken together, by one for a taken request of that tag and by nothing
else (R149, R150, R151). The record of responses is the model's (notes/assumptions/24.md). -/
def Obligations.EveryRequestIsAnsweredOnce : Prop :=
  ∀ (c : Instr) (s t : State), InRange s → c ≠ .resetAssert → (∀ m b, c ≠ .resetRelease m b) → exec c s = .next t →
    (∃ more, t.responses = s.responses ++ more) ∧
    ∀ g : HostTag, accounted t g = accounted s g + (match c with
      | .upstreamRequest q => if q.tag = g ∧ s.requestReady = true ∧ s.entry g = none then 1 else 0
      | _ => 0)

/-- A notice, once pending, stays pending until CLAIM selects it or the part is reset (R175). -/
def Obligations.OnlyClaimAndResetClearANotice : Prop :=
  ∀ (c : Instr) (s t : State) (n : Source), exec c s = .next t → s.flag n = true → (∀ m b, c ≠ .resetRelease m b) →
    (t.flag n = true ∨ c = .claim ∧ claimed s.notices = some n)
end

