-- ==== Sys2Proof/Laws/State.lean ====
section
/-! SUPPORT. One lemma for each field and each update of the state: what an update leaves is as it stood, and what it
changes is what it says. -/

namespace Sys2Proof.Machine

variable (s : State)

/-! `State.updLog` -/

@[simp] theorem State.updLog_pending (f : LogState → LogState) : (s.updLog f).pending = s.pending := rfl
@[simp] theorem State.updLog_inReset (f : LogState → LogState) : (s.updLog f).inReset = s.inReset := rfl
@[simp] theorem State.updLog_msize (f : LogState → LogState) : (s.updLog f).msize = s.msize := rfl
@[simp] theorem State.updLog_device (f : LogState → LogState) : (s.updLog f).device = s.device := rfl
@[simp] theorem State.updLog_powerFail (f : LogState → LogState) : (s.updLog f).powerFail = s.powerFail := rfl
@[simp] theorem State.updLog_issueAllowed (f : LogState → LogState) : (s.updLog f).issueAllowed = s.issueAllowed := rfl
@[simp] theorem State.updLog_regions (f : LogState → LogState) : (s.updLog f).regions = s.regions := rfl
@[simp] theorem State.updLog_directory (f : LogState → LogState) : (s.updLog f).directory = s.directory := rfl
@[simp] theorem State.updLog_log (f : LogState → LogState) : (s.updLog f).log = f s.log := rfl
@[simp] theorem State.updLog_writer (f : LogState → LogState) : (s.updLog f).writer = s.writer := rfl
@[simp] theorem State.updLog_engine (f : LogState → LogState) : (s.updLog f).engine = s.engine := rfl
@[simp] theorem State.updLog_startup (f : LogState → LogState) : (s.updLog f).startup = s.startup := rfl
@[simp] theorem State.updLog_faults (f : LogState → LogState) : (s.updLog f).faults = s.faults := rfl
@[simp] theorem State.updLog_notices (f : LogState → LogState) : (s.updLog f).notices = s.notices := rfl
@[simp] theorem State.updLog_table (f : LogState → LogState) : (s.updLog f).table = s.table := rfl
@[simp] theorem State.updLog_dport (f : LogState → LogState) : (s.updLog f).dport = s.dport := rfl
@[simp] theorem State.updLog_params (f : LogState → LogState) : (s.updLog f).params = s.params := rfl
@[simp] theorem State.updLog_timebase (f : LogState → LogState) : (s.updLog f).timebase = s.timebase := rfl
@[simp] theorem State.updLog_link (f : LogState → LogState) : (s.updLog f).link = s.link := rfl
@[simp] theorem State.updLog_responses (f : LogState → LogState) : (s.updLog f).responses = s.responses := rfl
@[simp] theorem State.updLog_issued (f : LogState → LogState) : (s.updLog f).issued = s.issued := rfl
@[simp] theorem State.updLog_freeCount (f : LogState → LogState) : (s.updLog f).freeCount = s.freeCount := rfl

/-! `State.updWriter` -/

@[simp] theorem State.updWriter_pending (f : LogWriter → LogWriter) : (s.updWriter f).pending = s.pending := rfl
@[simp] theorem State.updWriter_inReset (f : LogWriter → LogWriter) : (s.updWriter f).inReset = s.inReset := rfl
@[simp] theorem State.updWriter_msize (f : LogWriter → LogWriter) : (s.updWriter f).msize = s.msize := rfl
@[simp] theorem State.updWriter_device (f : LogWriter → LogWriter) : (s.updWriter f).device = s.device := rfl
@[simp] theorem State.updWriter_powerFail (f : LogWriter → LogWriter) : (s.updWriter f).powerFail = s.powerFail := rfl
@[simp] theorem State.updWriter_issueAllowed (f : LogWriter → LogWriter) : (s.updWriter f).issueAllowed = s.issueAllowed := rfl
@[simp] theorem State.updWriter_regions (f : LogWriter → LogWriter) : (s.updWriter f).regions = s.regions := rfl
@[simp] theorem State.updWriter_directory (f : LogWriter → LogWriter) : (s.updWriter f).directory = s.directory := rfl
@[simp] theorem State.updWriter_log (f : LogWriter → LogWriter) : (s.updWriter f).log = s.log := rfl
@[simp] theorem State.updWriter_writer (f : LogWriter → LogWriter) : (s.updWriter f).writer = f s.writer := rfl
@[simp] theorem State.updWriter_engine (f : LogWriter → LogWriter) : (s.updWriter f).engine = s.engine := rfl
@[simp] theorem State.updWriter_startup (f : LogWriter → LogWriter) : (s.updWriter f).startup = s.startup := rfl
@[simp] theorem State.updWriter_faults (f : LogWriter → LogWriter) : (s.updWriter f).faults = s.faults := rfl
@[simp] theorem State.updWriter_notices (f : LogWriter → LogWriter) : (s.updWriter f).notices = s.notices := rfl
@[simp] theorem State.updWriter_table (f : LogWriter → LogWriter) : (s.updWriter f).table = s.table := rfl
@[simp] theorem State.updWriter_dport (f : LogWriter → LogWriter) : (s.updWriter f).dport = s.dport := rfl
@[simp] theorem State.updWriter_params (f : LogWriter → LogWriter) : (s.updWriter f).params = s.params := rfl
@[simp] theorem State.updWriter_timebase (f : LogWriter → LogWriter) : (s.updWriter f).timebase = s.timebase := rfl
@[simp] theorem State.updWriter_link (f : LogWriter → LogWriter) : (s.updWriter f).link = s.link := rfl
@[simp] theorem State.updWriter_responses (f : LogWriter → LogWriter) : (s.updWriter f).responses = s.responses := rfl
@[simp] theorem State.updWriter_issued (f : LogWriter → LogWriter) : (s.updWriter f).issued = s.issued := rfl
@[simp] theorem State.updWriter_freeCount (f : LogWriter → LogWriter) : (s.updWriter f).freeCount = s.freeCount := rfl

/-! `State.updEngine` -/

@[simp] theorem State.updEngine_pending (f : Engine → Engine) : (s.updEngine f).pending = s.pending := rfl
@[simp] theorem State.updEngine_inReset (f : Engine → Engine) : (s.updEngine f).inReset = s.inReset := rfl
@[simp] theorem State.updEngine_msize (f : Engine → Engine) : (s.updEngine f).msize = s.msize := rfl
@[simp] theorem State.updEngine_device (f : Engine → Engine) : (s.updEngine f).device = s.device := rfl
@[simp] theorem State.updEngine_powerFail (f : Engine → Engine) : (s.updEngine f).powerFail = s.powerFail := rfl
@[simp] theorem State.updEngine_issueAllowed (f : Engine → Engine) : (s.updEngine f).issueAllowed = s.issueAllowed := rfl
@[simp] theorem State.updEngine_regions (f : Engine → Engine) : (s.updEngine f).regions = s.regions := rfl
@[simp] theorem State.updEngine_directory (f : Engine → Engine) : (s.updEngine f).directory = s.directory := rfl
@[simp] theorem State.updEngine_log (f : Engine → Engine) : (s.updEngine f).log = s.log := rfl
@[simp] theorem State.updEngine_writer (f : Engine → Engine) : (s.updEngine f).writer = s.writer := rfl
@[simp] theorem State.updEngine_engine (f : Engine → Engine) : (s.updEngine f).engine = f s.engine := rfl
@[simp] theorem State.updEngine_startup (f : Engine → Engine) : (s.updEngine f).startup = s.startup := rfl
@[simp] theorem State.updEngine_faults (f : Engine → Engine) : (s.updEngine f).faults = s.faults := rfl
@[simp] theorem State.updEngine_notices (f : Engine → Engine) : (s.updEngine f).notices = s.notices := rfl
@[simp] theorem State.updEngine_table (f : Engine → Engine) : (s.updEngine f).table = s.table := rfl
@[simp] theorem State.updEngine_dport (f : Engine → Engine) : (s.updEngine f).dport = s.dport := rfl
@[simp] theorem State.updEngine_params (f : Engine → Engine) : (s.updEngine f).params = s.params := rfl
@[simp] theorem State.updEngine_timebase (f : Engine → Engine) : (s.updEngine f).timebase = s.timebase := rfl
@[simp] theorem State.updEngine_link (f : Engine → Engine) : (s.updEngine f).link = s.link := rfl
@[simp] theorem State.updEngine_responses (f : Engine → Engine) : (s.updEngine f).responses = s.responses := rfl
@[simp] theorem State.updEngine_issued (f : Engine → Engine) : (s.updEngine f).issued = s.issued := rfl
@[simp] theorem State.updEngine_freeCount (f : Engine → Engine) : (s.updEngine f).freeCount = s.freeCount := rfl

/-! `State.updStartup` -/

@[simp] theorem State.updStartup_pending (f : Startup → Startup) : (s.updStartup f).pending = s.pending := rfl
@[simp] theorem State.updStartup_inReset (f : Startup → Startup) : (s.updStartup f).inReset = s.inReset := rfl
@[simp] theorem State.updStartup_msize (f : Startup → Startup) : (s.updStartup f).msize = s.msize := rfl
@[simp] theorem State.updStartup_device (f : Startup → Startup) : (s.updStartup f).device = s.device := rfl
@[simp] theorem State.updStartup_powerFail (f : Startup → Startup) : (s.updStartup f).powerFail = s.powerFail := rfl
@[simp] theorem State.updStartup_issueAllowed (f : Startup → Startup) : (s.updStartup f).issueAllowed = s.issueAllowed := rfl
@[simp] theorem State.updStartup_regions (f : Startup → Startup) : (s.updStartup f).regions = s.regions := rfl
@[simp] theorem State.updStartup_directory (f : Startup → Startup) : (s.updStartup f).directory = s.directory := rfl
@[simp] theorem State.updStartup_log (f : Startup → Startup) : (s.updStartup f).log = s.log := rfl
@[simp] theorem State.updStartup_writer (f : Startup → Startup) : (s.updStartup f).writer = s.writer := rfl
@[simp] theorem State.updStartup_engine (f : Startup → Startup) : (s.updStartup f).engine = s.engine := rfl
@[simp] theorem State.updStartup_startup (f : Startup → Startup) : (s.updStartup f).startup = f s.startup := rfl
@[simp] theorem State.updStartup_faults (f : Startup → Startup) : (s.updStartup f).faults = s.faults := rfl
@[simp] theorem State.updStartup_notices (f : Startup → Startup) : (s.updStartup f).notices = s.notices := rfl
@[simp] theorem State.updStartup_table (f : Startup → Startup) : (s.updStartup f).table = s.table := rfl
@[simp] theorem State.updStartup_dport (f : Startup → Startup) : (s.updStartup f).dport = s.dport := rfl
@[simp] theorem State.updStartup_params (f : Startup → Startup) : (s.updStartup f).params = s.params := rfl
@[simp] theorem State.updStartup_timebase (f : Startup → Startup) : (s.updStartup f).timebase = s.timebase := rfl
@[simp] theorem State.updStartup_link (f : Startup → Startup) : (s.updStartup f).link = s.link := rfl
@[simp] theorem State.updStartup_responses (f : Startup → Startup) : (s.updStartup f).responses = s.responses := rfl
@[simp] theorem State.updStartup_issued (f : Startup → Startup) : (s.updStartup f).issued = s.issued := rfl
@[simp] theorem State.updStartup_freeCount (f : Startup → Startup) : (s.updStartup f).freeCount = s.freeCount := rfl

/-! `State.updDport` -/

@[simp] theorem State.updDport_pending (f : Downstream → Downstream) : (s.updDport f).pending = s.pending := rfl
@[simp] theorem State.updDport_inReset (f : Downstream → Downstream) : (s.updDport f).inReset = s.inReset := rfl
@[simp] theorem State.updDport_msize (f : Downstream → Downstream) : (s.updDport f).msize = s.msize := rfl
@[simp] theorem State.updDport_device (f : Downstream → Downstream) : (s.updDport f).device = s.device := rfl
@[simp] theorem State.updDport_powerFail (f : Downstream → Downstream) : (s.updDport f).powerFail = s.powerFail := rfl
@[simp] theorem State.updDport_issueAllowed (f : Downstream → Downstream) : (s.updDport f).issueAllowed = s.issueAllowed := rfl
@[simp] theorem State.updDport_regions (f : Downstream → Downstream) : (s.updDport f).regions = s.regions := rfl
@[simp] theorem State.updDport_directory (f : Downstream → Downstream) : (s.updDport f).directory = s.directory := rfl
@[simp] theorem State.updDport_log (f : Downstream → Downstream) : (s.updDport f).log = s.log := rfl
@[simp] theorem State.updDport_writer (f : Downstream → Downstream) : (s.updDport f).writer = s.writer := rfl
@[simp] theorem State.updDport_engine (f : Downstream → Downstream) : (s.updDport f).engine = s.engine := rfl
@[simp] theorem State.updDport_startup (f : Downstream → Downstream) : (s.updDport f).startup = s.startup := rfl
@[simp] theorem State.updDport_faults (f : Downstream → Downstream) : (s.updDport f).faults = s.faults := rfl
@[simp] theorem State.updDport_notices (f : Downstream → Downstream) : (s.updDport f).notices = s.notices := rfl
@[simp] theorem State.updDport_table (f : Downstream → Downstream) : (s.updDport f).table = s.table := rfl
@[simp] theorem State.updDport_dport (f : Downstream → Downstream) : (s.updDport f).dport = f s.dport := rfl
@[simp] theorem State.updDport_params (f : Downstream → Downstream) : (s.updDport f).params = s.params := rfl
@[simp] theorem State.updDport_timebase (f : Downstream → Downstream) : (s.updDport f).timebase = s.timebase := rfl
@[simp] theorem State.updDport_link (f : Downstream → Downstream) : (s.updDport f).link = s.link := rfl
@[simp] theorem State.updDport_responses (f : Downstream → Downstream) : (s.updDport f).responses = s.responses := rfl
@[simp] theorem State.updDport_issued (f : Downstream → Downstream) : (s.updDport f).issued = s.issued := rfl
@[simp] theorem State.updDport_freeCount (f : Downstream → Downstream) : (s.updDport f).freeCount = s.freeCount := rfl

/-! `State.updPowerFail` -/

@[simp] theorem State.updPowerFail_pending (f : PowerFail → PowerFail) : (s.updPowerFail f).pending = s.pending := rfl
@[simp] theorem State.updPowerFail_inReset (f : PowerFail → PowerFail) : (s.updPowerFail f).inReset = s.inReset := rfl
@[simp] theorem State.updPowerFail_msize (f : PowerFail → PowerFail) : (s.updPowerFail f).msize = s.msize := rfl
@[simp] theorem State.updPowerFail_device (f : PowerFail → PowerFail) : (s.updPowerFail f).device = s.device := rfl
@[simp] theorem State.updPowerFail_powerFail (f : PowerFail → PowerFail) : (s.updPowerFail f).powerFail = f s.powerFail := rfl
@[simp] theorem State.updPowerFail_issueAllowed (f : PowerFail → PowerFail) : (s.updPowerFail f).issueAllowed = s.issueAllowed := rfl
@[simp] theorem State.updPowerFail_regions (f : PowerFail → PowerFail) : (s.updPowerFail f).regions = s.regions := rfl
@[simp] theorem State.updPowerFail_directory (f : PowerFail → PowerFail) : (s.updPowerFail f).directory = s.directory := rfl
@[simp] theorem State.updPowerFail_log (f : PowerFail → PowerFail) : (s.updPowerFail f).log = s.log := rfl
@[simp] theorem State.updPowerFail_writer (f : PowerFail → PowerFail) : (s.updPowerFail f).writer = s.writer := rfl
@[simp] theorem State.updPowerFail_engine (f : PowerFail → PowerFail) : (s.updPowerFail f).engine = s.engine := rfl
@[simp] theorem State.updPowerFail_startup (f : PowerFail → PowerFail) : (s.updPowerFail f).startup = s.startup := rfl
@[simp] theorem State.updPowerFail_faults (f : PowerFail → PowerFail) : (s.updPowerFail f).faults = s.faults := rfl
@[simp] theorem State.updPowerFail_notices (f : PowerFail → PowerFail) : (s.updPowerFail f).notices = s.notices := rfl
@[simp] theorem State.updPowerFail_table (f : PowerFail → PowerFail) : (s.updPowerFail f).table = s.table := rfl
@[simp] theorem State.updPowerFail_dport (f : PowerFail → PowerFail) : (s.updPowerFail f).dport = s.dport := rfl
@[simp] theorem State.updPowerFail_params (f : PowerFail → PowerFail) : (s.updPowerFail f).params = s.params := rfl
@[simp] theorem State.updPowerFail_timebase (f : PowerFail → PowerFail) : (s.updPowerFail f).timebase = s.timebase := rfl
@[simp] theorem State.updPowerFail_link (f : PowerFail → PowerFail) : (s.updPowerFail f).link = s.link := rfl
@[simp] theorem State.updPowerFail_responses (f : PowerFail → PowerFail) : (s.updPowerFail f).responses = s.responses := rfl
@[simp] theorem State.updPowerFail_issued (f : PowerFail → PowerFail) : (s.updPowerFail f).issued = s.issued := rfl
@[simp] theorem State.updPowerFail_freeCount (f : PowerFail → PowerFail) : (s.updPowerFail f).freeCount = s.freeCount := rfl

/-! `State.setDevice` -/

@[simp] theorem State.setDevice_pending (d : DeviceState) : (s.setDevice d).pending = s.pending := rfl
@[simp] theorem State.setDevice_inReset (d : DeviceState) : (s.setDevice d).inReset = s.inReset := rfl
@[simp] theorem State.setDevice_msize (d : DeviceState) : (s.setDevice d).msize = s.msize := rfl
@[simp] theorem State.setDevice_device (d : DeviceState) : (s.setDevice d).device = d := rfl
@[simp] theorem State.setDevice_powerFail (d : DeviceState) : (s.setDevice d).powerFail = s.powerFail := rfl
@[simp] theorem State.setDevice_issueAllowed (d : DeviceState) : (s.setDevice d).issueAllowed = s.issueAllowed := rfl
@[simp] theorem State.setDevice_regions (d : DeviceState) : (s.setDevice d).regions = s.regions := rfl
@[simp] theorem State.setDevice_directory (d : DeviceState) : (s.setDevice d).directory = s.directory := rfl
@[simp] theorem State.setDevice_log (d : DeviceState) : (s.setDevice d).log = s.log := rfl
@[simp] theorem State.setDevice_writer (d : DeviceState) : (s.setDevice d).writer = s.writer := rfl
@[simp] theorem State.setDevice_engine (d : DeviceState) : (s.setDevice d).engine = s.engine := rfl
@[simp] theorem State.setDevice_startup (d : DeviceState) : (s.setDevice d).startup = s.startup := rfl
@[simp] theorem State.setDevice_faults (d : DeviceState) : (s.setDevice d).faults = s.faults := rfl
@[simp] theorem State.setDevice_notices (d : DeviceState) : (s.setDevice d).notices = s.notices := rfl
@[simp] theorem State.setDevice_table (d : DeviceState) : (s.setDevice d).table = s.table := rfl
@[simp] theorem State.setDevice_dport (d : DeviceState) : (s.setDevice d).dport = s.dport := rfl
@[simp] theorem State.setDevice_params (d : DeviceState) : (s.setDevice d).params = s.params := rfl
@[simp] theorem State.setDevice_timebase (d : DeviceState) : (s.setDevice d).timebase = s.timebase := rfl
@[simp] theorem State.setDevice_link (d : DeviceState) : (s.setDevice d).link = s.link := rfl
@[simp] theorem State.setDevice_responses (d : DeviceState) : (s.setDevice d).responses = s.responses := rfl
@[simp] theorem State.setDevice_issued (d : DeviceState) : (s.setDevice d).issued = s.issued := rfl
@[simp] theorem State.setDevice_freeCount (d : DeviceState) : (s.setDevice d).freeCount = s.freeCount := rfl

/-! `State.updRegion` -/

@[simp] theorem State.updRegion_pending (r : RegionId) (f : Region → Region) : (s.updRegion r f).pending = s.pending := rfl
@[simp] theorem State.updRegion_inReset (r : RegionId) (f : Region → Region) : (s.updRegion r f).inReset = s.inReset := rfl
@[simp] theorem State.updRegion_msize (r : RegionId) (f : Region → Region) : (s.updRegion r f).msize = s.msize := rfl
@[simp] theorem State.updRegion_device (r : RegionId) (f : Region → Region) : (s.updRegion r f).device = s.device := rfl
@[simp] theorem State.updRegion_powerFail (r : RegionId) (f : Region → Region) : (s.updRegion r f).powerFail = s.powerFail := rfl
@[simp] theorem State.updRegion_issueAllowed (r : RegionId) (f : Region → Region) : (s.updRegion r f).issueAllowed = s.issueAllowed := rfl
@[simp] theorem State.updRegion_regions (r : RegionId) (f : Region → Region) : (s.updRegion r f).regions = s.regions.set r.val (f (s.region r)) := rfl
@[simp] theorem State.updRegion_directory (r : RegionId) (f : Region → Region) : (s.updRegion r f).directory = s.directory := rfl
@[simp] theorem State.updRegion_log (r : RegionId) (f : Region → Region) : (s.updRegion r f).log = s.log := rfl
@[simp] theorem State.updRegion_writer (r : RegionId) (f : Region → Region) : (s.updRegion r f).writer = s.writer := rfl
@[simp] theorem State.updRegion_engine (r : RegionId) (f : Region → Region) : (s.updRegion r f).engine = s.engine := rfl
@[simp] theorem State.updRegion_startup (r : RegionId) (f : Region → Region) : (s.updRegion r f).startup = s.startup := rfl
@[simp] theorem State.updRegion_faults (r : RegionId) (f : Region → Region) : (s.updRegion r f).faults = s.faults := rfl
@[simp] theorem State.updRegion_notices (r : RegionId) (f : Region → Region) : (s.updRegion r f).notices = s.notices := rfl
@[simp] theorem State.updRegion_table (r : RegionId) (f : Region → Region) : (s.updRegion r f).table = s.table := rfl
@[simp] theorem State.updRegion_dport (r : RegionId) (f : Region → Region) : (s.updRegion r f).dport = s.dport := rfl
@[simp] theorem State.updRegion_params (r : RegionId) (f : Region → Region) : (s.updRegion r f).params = s.params := rfl
@[simp] theorem State.updRegion_timebase (r : RegionId) (f : Region → Region) : (s.updRegion r f).timebase = s.timebase := rfl
@[simp] theorem State.updRegion_link (r : RegionId) (f : Region → Region) : (s.updRegion r f).link = s.link := rfl
@[simp] theorem State.updRegion_responses (r : RegionId) (f : Region → Region) : (s.updRegion r f).responses = s.responses := rfl
@[simp] theorem State.updRegion_issued (r : RegionId) (f : Region → Region) : (s.updRegion r f).issued = s.issued := rfl
@[simp] theorem State.updRegion_freeCount (r : RegionId) (f : Region → Region) : (s.updRegion r f).freeCount = s.freeCount := rfl

/-! `State.setNotice` -/

@[simp] theorem State.setNotice_pending (n : Source) : (s.setNotice n).pending = s.pending := rfl
@[simp] theorem State.setNotice_inReset (n : Source) : (s.setNotice n).inReset = s.inReset := rfl
@[simp] theorem State.setNotice_msize (n : Source) : (s.setNotice n).msize = s.msize := rfl
@[simp] theorem State.setNotice_device (n : Source) : (s.setNotice n).device = s.device := rfl
@[simp] theorem State.setNotice_powerFail (n : Source) : (s.setNotice n).powerFail = s.powerFail := rfl
@[simp] theorem State.setNotice_issueAllowed (n : Source) : (s.setNotice n).issueAllowed = s.issueAllowed := rfl
@[simp] theorem State.setNotice_regions (n : Source) : (s.setNotice n).regions = s.regions := rfl
@[simp] theorem State.setNotice_directory (n : Source) : (s.setNotice n).directory = s.directory := rfl
@[simp] theorem State.setNotice_log (n : Source) : (s.setNotice n).log = s.log := rfl
@[simp] theorem State.setNotice_writer (n : Source) : (s.setNotice n).writer = s.writer := rfl
@[simp] theorem State.setNotice_engine (n : Source) : (s.setNotice n).engine = s.engine := rfl
@[simp] theorem State.setNotice_startup (n : Source) : (s.setNotice n).startup = s.startup := rfl
@[simp] theorem State.setNotice_faults (n : Source) : (s.setNotice n).faults = s.faults := rfl
@[simp] theorem State.setNotice_notices (n : Source) : (s.setNotice n).notices = { s.notices with flags := s.notices.flags.set n.val true } := rfl
@[simp] theorem State.setNotice_table (n : Source) : (s.setNotice n).table = s.table := rfl
@[simp] theorem State.setNotice_dport (n : Source) : (s.setNotice n).dport = s.dport := rfl
@[simp] theorem State.setNotice_params (n : Source) : (s.setNotice n).params = s.params := rfl
@[simp] theorem State.setNotice_timebase (n : Source) : (s.setNotice n).timebase = s.timebase := rfl
@[simp] theorem State.setNotice_link (n : Source) : (s.setNotice n).link = s.link := rfl
@[simp] theorem State.setNotice_responses (n : Source) : (s.setNotice n).responses = s.responses := rfl
@[simp] theorem State.setNotice_issued (n : Source) : (s.setNotice n).issued = s.issued := rfl
@[simp] theorem State.setNotice_freeCount (n : Source) : (s.setNotice n).freeCount = s.freeCount := rfl

/-! `State.clearNotice` -/

@[simp] theorem State.clearNotice_pending (n : Source) : (s.clearNotice n).pending = s.pending := rfl
@[simp] theorem State.clearNotice_inReset (n : Source) : (s.clearNotice n).inReset = s.inReset := rfl
@[simp] theorem State.clearNotice_msize (n : Source) : (s.clearNotice n).msize = s.msize := rfl
@[simp] theorem State.clearNotice_device (n : Source) : (s.clearNotice n).device = s.device := rfl
@[simp] theorem State.clearNotice_powerFail (n : Source) : (s.clearNotice n).powerFail = s.powerFail := rfl
@[simp] theorem State.clearNotice_issueAllowed (n : Source) : (s.clearNotice n).issueAllowed = s.issueAllowed := rfl
@[simp] theorem State.clearNotice_regions (n : Source) : (s.clearNotice n).regions = s.regions := rfl
@[simp] theorem State.clearNotice_directory (n : Source) : (s.clearNotice n).directory = s.directory := rfl
@[simp] theorem State.clearNotice_log (n : Source) : (s.clearNotice n).log = s.log := rfl
@[simp] theorem State.clearNotice_writer (n : Source) : (s.clearNotice n).writer = s.writer := rfl
@[simp] theorem State.clearNotice_engine (n : Source) : (s.clearNotice n).engine = s.engine := rfl
@[simp] theorem State.clearNotice_startup (n : Source) : (s.clearNotice n).startup = s.startup := rfl
@[simp] theorem State.clearNotice_faults (n : Source) : (s.clearNotice n).faults = s.faults := rfl
@[simp] theorem State.clearNotice_notices (n : Source) : (s.clearNotice n).notices = { s.notices with flags := s.notices.flags.set n.val false } := rfl
@[simp] theorem State.clearNotice_table (n : Source) : (s.clearNotice n).table = s.table := rfl
@[simp] theorem State.clearNotice_dport (n : Source) : (s.clearNotice n).dport = s.dport := rfl
@[simp] theorem State.clearNotice_params (n : Source) : (s.clearNotice n).params = s.params := rfl
@[simp] theorem State.clearNotice_timebase (n : Source) : (s.clearNotice n).timebase = s.timebase := rfl
@[simp] theorem State.clearNotice_link (n : Source) : (s.clearNotice n).link = s.link := rfl
@[simp] theorem State.clearNotice_responses (n : Source) : (s.clearNotice n).responses = s.responses := rfl
@[simp] theorem State.clearNotice_issued (n : Source) : (s.clearNotice n).issued = s.issued := rfl
@[simp] theorem State.clearNotice_freeCount (n : Source) : (s.clearNotice n).freeCount = s.freeCount := rfl

/-! `State.updEntry` -/

@[simp] theorem State.updEntry_pending (t : HostTag) (f : Entry → Entry) : (s.updEntry t f).pending = s.pending := rfl
@[simp] theorem State.updEntry_inReset (t : HostTag) (f : Entry → Entry) : (s.updEntry t f).inReset = s.inReset := rfl
@[simp] theorem State.updEntry_msize (t : HostTag) (f : Entry → Entry) : (s.updEntry t f).msize = s.msize := rfl
@[simp] theorem State.updEntry_device (t : HostTag) (f : Entry → Entry) : (s.updEntry t f).device = s.device := rfl
@[simp] theorem State.updEntry_powerFail (t : HostTag) (f : Entry → Entry) : (s.updEntry t f).powerFail = s.powerFail := rfl
@[simp] theorem State.updEntry_issueAllowed (t : HostTag) (f : Entry → Entry) : (s.updEntry t f).issueAllowed = s.issueAllowed := rfl
@[simp] theorem State.updEntry_regions (t : HostTag) (f : Entry → Entry) : (s.updEntry t f).regions = s.regions := rfl
@[simp] theorem State.updEntry_directory (t : HostTag) (f : Entry → Entry) : (s.updEntry t f).directory = s.directory := rfl
@[simp] theorem State.updEntry_log (t : HostTag) (f : Entry → Entry) : (s.updEntry t f).log = s.log := rfl
@[simp] theorem State.updEntry_writer (t : HostTag) (f : Entry → Entry) : (s.updEntry t f).writer = s.writer := rfl
@[simp] theorem State.updEntry_engine (t : HostTag) (f : Entry → Entry) : (s.updEntry t f).engine = s.engine := rfl
@[simp] theorem State.updEntry_startup (t : HostTag) (f : Entry → Entry) : (s.updEntry t f).startup = s.startup := rfl
@[simp] theorem State.updEntry_faults (t : HostTag) (f : Entry → Entry) : (s.updEntry t f).faults = s.faults := rfl
@[simp] theorem State.updEntry_notices (t : HostTag) (f : Entry → Entry) : (s.updEntry t f).notices = s.notices := rfl
@[simp] theorem State.updEntry_table (t : HostTag) (f : Entry → Entry) : (s.updEntry t f).table = s.table.map fun e => if e.tag = t then f e else e := rfl
@[simp] theorem State.updEntry_dport (t : HostTag) (f : Entry → Entry) : (s.updEntry t f).dport = s.dport := rfl
@[simp] theorem State.updEntry_params (t : HostTag) (f : Entry → Entry) : (s.updEntry t f).params = s.params := rfl
@[simp] theorem State.updEntry_timebase (t : HostTag) (f : Entry → Entry) : (s.updEntry t f).timebase = s.timebase := rfl
@[simp] theorem State.updEntry_link (t : HostTag) (f : Entry → Entry) : (s.updEntry t f).link = s.link := rfl
@[simp] theorem State.updEntry_responses (t : HostTag) (f : Entry → Entry) : (s.updEntry t f).responses = s.responses := rfl
@[simp] theorem State.updEntry_issued (t : HostTag) (f : Entry → Entry) : (s.updEntry t f).issued = s.issued := rfl
@[simp] theorem State.updEntry_freeCount (t : HostTag) (f : Entry → Entry) : (s.updEntry t f).freeCount = s.freeCount := rfl

/-! `State.releaseWrite` -/

@[simp] theorem State.releaseWrite_pending (t : HostTag) : (s.releaseWrite t).pending = s.pending := rfl
@[simp] theorem State.releaseWrite_inReset (t : HostTag) : (s.releaseWrite t).inReset = s.inReset := rfl
@[simp] theorem State.releaseWrite_msize (t : HostTag) : (s.releaseWrite t).msize = s.msize := rfl
@[simp] theorem State.releaseWrite_device (t : HostTag) : (s.releaseWrite t).device = s.device := rfl
@[simp] theorem State.releaseWrite_powerFail (t : HostTag) : (s.releaseWrite t).powerFail = s.powerFail := rfl
@[simp] theorem State.releaseWrite_issueAllowed (t : HostTag) : (s.releaseWrite t).issueAllowed = s.issueAllowed := rfl
@[simp] theorem State.releaseWrite_regions (t : HostTag) : (s.releaseWrite t).regions = s.regions := rfl
@[simp] theorem State.releaseWrite_directory (t : HostTag) : (s.releaseWrite t).directory = s.directory := rfl
@[simp] theorem State.releaseWrite_log (t : HostTag) : (s.releaseWrite t).log = s.log := rfl
@[simp] theorem State.releaseWrite_writer (t : HostTag) : (s.releaseWrite t).writer = s.writer := rfl
@[simp] theorem State.releaseWrite_engine (t : HostTag) : (s.releaseWrite t).engine = s.engine := rfl
@[simp] theorem State.releaseWrite_startup (t : HostTag) : (s.releaseWrite t).startup = s.startup := rfl
@[simp] theorem State.releaseWrite_faults (t : HostTag) : (s.releaseWrite t).faults = s.faults := rfl
@[simp] theorem State.releaseWrite_notices (t : HostTag) : (s.releaseWrite t).notices = s.notices := rfl
@[simp] theorem State.releaseWrite_table (t : HostTag) : (s.releaseWrite t).table = s.table.map fun e => if e.tag = t then (if e.state = .waitLog then { e with state := .ready, handling := some .inPlace } else e) else e := rfl
@[simp] theorem State.releaseWrite_dport (t : HostTag) : (s.releaseWrite t).dport = s.dport := rfl
@[simp] theorem State.releaseWrite_params (t : HostTag) : (s.releaseWrite t).params = s.params := rfl
@[simp] theorem State.releaseWrite_timebase (t : HostTag) : (s.releaseWrite t).timebase = s.timebase := rfl
@[simp] theorem State.releaseWrite_link (t : HostTag) : (s.releaseWrite t).link = s.link := rfl
@[simp] theorem State.releaseWrite_responses (t : HostTag) : (s.releaseWrite t).responses = s.responses := rfl
@[simp] theorem State.releaseWrite_issued (t : HostTag) : (s.releaseWrite t).issued = s.issued := rfl
@[simp] theorem State.releaseWrite_freeCount (t : HostTag) : (s.releaseWrite t).freeCount = s.freeCount := rfl

/-! `State.moveEntries` -/

@[simp] theorem State.moveEntries_pending (ts : List HostTag) (st : EntryState) : (s.moveEntries ts st).pending = s.pending := rfl
@[simp] theorem State.moveEntries_inReset (ts : List HostTag) (st : EntryState) : (s.moveEntries ts st).inReset = s.inReset := rfl
@[simp] theorem State.moveEntries_msize (ts : List HostTag) (st : EntryState) : (s.moveEntries ts st).msize = s.msize := rfl
@[simp] theorem State.moveEntries_device (ts : List HostTag) (st : EntryState) : (s.moveEntries ts st).device = s.device := rfl
@[simp] theorem State.moveEntries_powerFail (ts : List HostTag) (st : EntryState) : (s.moveEntries ts st).powerFail = s.powerFail := rfl
@[simp] theorem State.moveEntries_issueAllowed (ts : List HostTag) (st : EntryState) : (s.moveEntries ts st).issueAllowed = s.issueAllowed := rfl
@[simp] theorem State.moveEntries_regions (ts : List HostTag) (st : EntryState) : (s.moveEntries ts st).regions = s.regions := rfl
@[simp] theorem State.moveEntries_directory (ts : List HostTag) (st : EntryState) : (s.moveEntries ts st).directory = s.directory := rfl
@[simp] theorem State.moveEntries_log (ts : List HostTag) (st : EntryState) : (s.moveEntries ts st).log = s.log := rfl
@[simp] theorem State.moveEntries_writer (ts : List HostTag) (st : EntryState) : (s.moveEntries ts st).writer = s.writer := rfl
@[simp] theorem State.moveEntries_engine (ts : List HostTag) (st : EntryState) : (s.moveEntries ts st).engine = s.engine := rfl
@[simp] theorem State.moveEntries_startup (ts : List HostTag) (st : EntryState) : (s.moveEntries ts st).startup = s.startup := rfl
@[simp] theorem State.moveEntries_faults (ts : List HostTag) (st : EntryState) : (s.moveEntries ts st).faults = s.faults := rfl
@[simp] theorem State.moveEntries_notices (ts : List HostTag) (st : EntryState) : (s.moveEntries ts st).notices = s.notices := rfl
@[simp] theorem State.moveEntries_table (ts : List HostTag) (st : EntryState) : (s.moveEntries ts st).table = s.table.map fun e => if e.tag ∈ ts ∧ (e.state = .waitLog ∨ e.state = .waitSpace) then { e with state := st } else e := rfl
@[simp] theorem State.moveEntries_dport (ts : List HostTag) (st : EntryState) : (s.moveEntries ts st).dport = s.dport := rfl
@[simp] theorem State.moveEntries_params (ts : List HostTag) (st : EntryState) : (s.moveEntries ts st).params = s.params := rfl
@[simp] theorem State.moveEntries_timebase (ts : List HostTag) (st : EntryState) : (s.moveEntries ts st).timebase = s.timebase := rfl
@[simp] theorem State.moveEntries_link (ts : List HostTag) (st : EntryState) : (s.moveEntries ts st).link = s.link := rfl
@[simp] theorem State.moveEntries_responses (ts : List HostTag) (st : EntryState) : (s.moveEntries ts st).responses = s.responses := rfl
@[simp] theorem State.moveEntries_issued (ts : List HostTag) (st : EntryState) : (s.moveEntries ts st).issued = s.issued := rfl
@[simp] theorem State.moveEntries_freeCount (ts : List HostTag) (st : EntryState) : (s.moveEntries ts st).freeCount = s.freeCount := rfl

/-! `State.freeDirectory` -/

@[simp] theorem State.freeDirectory_pending (r : RegionId) : (s.freeDirectory r).pending = s.pending := rfl
@[simp] theorem State.freeDirectory_inReset (r : RegionId) : (s.freeDirectory r).inReset = s.inReset := rfl
@[simp] theorem State.freeDirectory_msize (r : RegionId) : (s.freeDirectory r).msize = s.msize := rfl
@[simp] theorem State.freeDirectory_device (r : RegionId) : (s.freeDirectory r).device = s.device := rfl
@[simp] theorem State.freeDirectory_powerFail (r : RegionId) : (s.freeDirectory r).powerFail = s.powerFail := rfl
@[simp] theorem State.freeDirectory_issueAllowed (r : RegionId) : (s.freeDirectory r).issueAllowed = s.issueAllowed := rfl
@[simp] theorem State.freeDirectory_regions (r : RegionId) : (s.freeDirectory r).regions = s.regions := rfl
@[simp] theorem State.freeDirectory_directory (r : RegionId) : (s.freeDirectory r).directory = s.directory.filter fun d => d.region ≠ r := rfl
@[simp] theorem State.freeDirectory_log (r : RegionId) : (s.freeDirectory r).log = s.log := rfl
@[simp] theorem State.freeDirectory_writer (r : RegionId) : (s.freeDirectory r).writer = s.writer := rfl
@[simp] theorem State.freeDirectory_engine (r : RegionId) : (s.freeDirectory r).engine = s.engine := rfl
@[simp] theorem State.freeDirectory_startup (r : RegionId) : (s.freeDirectory r).startup = s.startup := rfl
@[simp] theorem State.freeDirectory_faults (r : RegionId) : (s.freeDirectory r).faults = s.faults := rfl
@[simp] theorem State.freeDirectory_notices (r : RegionId) : (s.freeDirectory r).notices = s.notices := rfl
@[simp] theorem State.freeDirectory_table (r : RegionId) : (s.freeDirectory r).table = s.table := rfl
@[simp] theorem State.freeDirectory_dport (r : RegionId) : (s.freeDirectory r).dport = s.dport := rfl
@[simp] theorem State.freeDirectory_params (r : RegionId) : (s.freeDirectory r).params = s.params := rfl
@[simp] theorem State.freeDirectory_timebase (r : RegionId) : (s.freeDirectory r).timebase = s.timebase := rfl
@[simp] theorem State.freeDirectory_link (r : RegionId) : (s.freeDirectory r).link = s.link := rfl
@[simp] theorem State.freeDirectory_responses (r : RegionId) : (s.freeDirectory r).responses = s.responses := rfl
@[simp] theorem State.freeDirectory_issued (r : RegionId) : (s.freeDirectory r).issued = s.issued := rfl
@[simp] theorem State.freeDirectory_freeCount (r : RegionId) : (s.freeDirectory r).freeCount = s.freeCount := rfl

/-! `State.dropPending` -/

@[simp] theorem State.dropPending_pending (r : RegionId) (ls : List Nat) : (s.dropPending r ls).pending = s.pending := rfl
@[simp] theorem State.dropPending_inReset (r : RegionId) (ls : List Nat) : (s.dropPending r ls).inReset = s.inReset := rfl
@[simp] theorem State.dropPending_msize (r : RegionId) (ls : List Nat) : (s.dropPending r ls).msize = s.msize := rfl
@[simp] theorem State.dropPending_device (r : RegionId) (ls : List Nat) : (s.dropPending r ls).device = s.device := rfl
@[simp] theorem State.dropPending_powerFail (r : RegionId) (ls : List Nat) : (s.dropPending r ls).powerFail = s.powerFail := rfl
@[simp] theorem State.dropPending_issueAllowed (r : RegionId) (ls : List Nat) : (s.dropPending r ls).issueAllowed = s.issueAllowed := rfl
@[simp] theorem State.dropPending_regions (r : RegionId) (ls : List Nat) : (s.dropPending r ls).regions = s.regions := rfl
@[simp] theorem State.dropPending_directory (r : RegionId) (ls : List Nat) : (s.dropPending r ls).directory = s.directory.filter fun d => !(d.region == r && !d.durable && decide (d.line ∈ ls)) := rfl
@[simp] theorem State.dropPending_log (r : RegionId) (ls : List Nat) : (s.dropPending r ls).log = s.log := rfl
@[simp] theorem State.dropPending_writer (r : RegionId) (ls : List Nat) : (s.dropPending r ls).writer = s.writer := rfl
@[simp] theorem State.dropPending_engine (r : RegionId) (ls : List Nat) : (s.dropPending r ls).engine = s.engine := rfl
@[simp] theorem State.dropPending_startup (r : RegionId) (ls : List Nat) : (s.dropPending r ls).startup = s.startup := rfl
@[simp] theorem State.dropPending_faults (r : RegionId) (ls : List Nat) : (s.dropPending r ls).faults = s.faults := rfl
@[simp] theorem State.dropPending_notices (r : RegionId) (ls : List Nat) : (s.dropPending r ls).notices = s.notices := rfl
@[simp] theorem State.dropPending_table (r : RegionId) (ls : List Nat) : (s.dropPending r ls).table = s.table := rfl
@[simp] theorem State.dropPending_dport (r : RegionId) (ls : List Nat) : (s.dropPending r ls).dport = s.dport := rfl
@[simp] theorem State.dropPending_params (r : RegionId) (ls : List Nat) : (s.dropPending r ls).params = s.params := rfl
@[simp] theorem State.dropPending_timebase (r : RegionId) (ls : List Nat) : (s.dropPending r ls).timebase = s.timebase := rfl
@[simp] theorem State.dropPending_link (r : RegionId) (ls : List Nat) : (s.dropPending r ls).link = s.link := rfl
@[simp] theorem State.dropPending_responses (r : RegionId) (ls : List Nat) : (s.dropPending r ls).responses = s.responses := rfl
@[simp] theorem State.dropPending_issued (r : RegionId) (ls : List Nat) : (s.dropPending r ls).issued = s.issued := rfl
@[simp] theorem State.dropPending_freeCount (r : RegionId) (ls : List Nat) : (s.dropPending r ls).freeCount = s.freeCount := rfl

/-! `State.makeDurable` -/

@[simp] theorem State.makeDurable_pending (r : RegionId) (ls : List Nat) : (s.makeDurable r ls).pending = s.pending := rfl
@[simp] theorem State.makeDurable_inReset (r : RegionId) (ls : List Nat) : (s.makeDurable r ls).inReset = s.inReset := rfl
@[simp] theorem State.makeDurable_msize (r : RegionId) (ls : List Nat) : (s.makeDurable r ls).msize = s.msize := rfl
@[simp] theorem State.makeDurable_device (r : RegionId) (ls : List Nat) : (s.makeDurable r ls).device = s.device := rfl
@[simp] theorem State.makeDurable_powerFail (r : RegionId) (ls : List Nat) : (s.makeDurable r ls).powerFail = s.powerFail := rfl
@[simp] theorem State.makeDurable_issueAllowed (r : RegionId) (ls : List Nat) : (s.makeDurable r ls).issueAllowed = s.issueAllowed := rfl
@[simp] theorem State.makeDurable_regions (r : RegionId) (ls : List Nat) : (s.makeDurable r ls).regions = s.regions := rfl
@[simp] theorem State.makeDurable_directory (r : RegionId) (ls : List Nat) : (s.makeDurable r ls).directory = s.directory.map fun d => if d.region = r ∧ d.line ∈ ls then { d with durable := true } else d := rfl
@[simp] theorem State.makeDurable_log (r : RegionId) (ls : List Nat) : (s.makeDurable r ls).log = s.log := rfl
@[simp] theorem State.makeDurable_writer (r : RegionId) (ls : List Nat) : (s.makeDurable r ls).writer = s.writer := rfl
@[simp] theorem State.makeDurable_engine (r : RegionId) (ls : List Nat) : (s.makeDurable r ls).engine = s.engine := rfl
@[simp] theorem State.makeDurable_startup (r : RegionId) (ls : List Nat) : (s.makeDurable r ls).startup = s.startup := rfl
@[simp] theorem State.makeDurable_faults (r : RegionId) (ls : List Nat) : (s.makeDurable r ls).faults = s.faults := rfl
@[simp] theorem State.makeDurable_notices (r : RegionId) (ls : List Nat) : (s.makeDurable r ls).notices = s.notices := rfl
@[simp] theorem State.makeDurable_table (r : RegionId) (ls : List Nat) : (s.makeDurable r ls).table = s.table := rfl
@[simp] theorem State.makeDurable_dport (r : RegionId) (ls : List Nat) : (s.makeDurable r ls).dport = s.dport := rfl
@[simp] theorem State.makeDurable_params (r : RegionId) (ls : List Nat) : (s.makeDurable r ls).params = s.params := rfl
@[simp] theorem State.makeDurable_timebase (r : RegionId) (ls : List Nat) : (s.makeDurable r ls).timebase = s.timebase := rfl
@[simp] theorem State.makeDurable_link (r : RegionId) (ls : List Nat) : (s.makeDurable r ls).link = s.link := rfl
@[simp] theorem State.makeDurable_responses (r : RegionId) (ls : List Nat) : (s.makeDurable r ls).responses = s.responses := rfl
@[simp] theorem State.makeDurable_issued (r : RegionId) (ls : List Nat) : (s.makeDurable r ls).issued = s.issued := rfl
@[simp] theorem State.makeDurable_freeCount (r : RegionId) (ls : List Nat) : (s.makeDurable r ls).freeCount = s.freeCount := rfl

/-! `State.setTag` -/

@[simp] theorem State.setTag_pending (t : DownTag) (x : Tag) : (s.setTag t x).pending = s.pending := rfl
@[simp] theorem State.setTag_inReset (t : DownTag) (x : Tag) : (s.setTag t x).inReset = s.inReset := rfl
@[simp] theorem State.setTag_msize (t : DownTag) (x : Tag) : (s.setTag t x).msize = s.msize := rfl
@[simp] theorem State.setTag_device (t : DownTag) (x : Tag) : (s.setTag t x).device = s.device := rfl
@[simp] theorem State.setTag_powerFail (t : DownTag) (x : Tag) : (s.setTag t x).powerFail = s.powerFail := rfl
@[simp] theorem State.setTag_issueAllowed (t : DownTag) (x : Tag) : (s.setTag t x).issueAllowed = s.issueAllowed := rfl
@[simp] theorem State.setTag_regions (t : DownTag) (x : Tag) : (s.setTag t x).regions = s.regions := rfl
@[simp] theorem State.setTag_directory (t : DownTag) (x : Tag) : (s.setTag t x).directory = s.directory := rfl
@[simp] theorem State.setTag_log (t : DownTag) (x : Tag) : (s.setTag t x).log = s.log := rfl
@[simp] theorem State.setTag_writer (t : DownTag) (x : Tag) : (s.setTag t x).writer = s.writer := rfl
@[simp] theorem State.setTag_engine (t : DownTag) (x : Tag) : (s.setTag t x).engine = s.engine := rfl
@[simp] theorem State.setTag_startup (t : DownTag) (x : Tag) : (s.setTag t x).startup = s.startup := rfl
@[simp] theorem State.setTag_faults (t : DownTag) (x : Tag) : (s.setTag t x).faults = s.faults := rfl
@[simp] theorem State.setTag_notices (t : DownTag) (x : Tag) : (s.setTag t x).notices = s.notices := rfl
@[simp] theorem State.setTag_table (t : DownTag) (x : Tag) : (s.setTag t x).table = s.table := rfl
@[simp] theorem State.setTag_dport (t : DownTag) (x : Tag) : (s.setTag t x).dport = { s.dport with tags := s.dport.tags.set t.val x } := rfl
@[simp] theorem State.setTag_params (t : DownTag) (x : Tag) : (s.setTag t x).params = s.params := rfl
@[simp] theorem State.setTag_timebase (t : DownTag) (x : Tag) : (s.setTag t x).timebase = s.timebase := rfl
@[simp] theorem State.setTag_link (t : DownTag) (x : Tag) : (s.setTag t x).link = s.link := rfl
@[simp] theorem State.setTag_responses (t : DownTag) (x : Tag) : (s.setTag t x).responses = s.responses := rfl
@[simp] theorem State.setTag_issued (t : DownTag) (x : Tag) : (s.setTag t x).issued = s.issued := rfl
@[simp] theorem State.setTag_freeCount (t : DownTag) (x : Tag) : (s.setTag t x).freeCount = s.freeCount := rfl

/-! `State.handAnchor` -/

@[simp] theorem State.handAnchor_pending (qs : List DownRequest) : (s.handAnchor qs).pending = s.pending := rfl
@[simp] theorem State.handAnchor_inReset (qs : List DownRequest) : (s.handAnchor qs).inReset = s.inReset := rfl
@[simp] theorem State.handAnchor_msize (qs : List DownRequest) : (s.handAnchor qs).msize = s.msize := rfl
@[simp] theorem State.handAnchor_device (qs : List DownRequest) : (s.handAnchor qs).device = s.device := rfl
@[simp] theorem State.handAnchor_powerFail (qs : List DownRequest) : (s.handAnchor qs).powerFail = s.powerFail := rfl
@[simp] theorem State.handAnchor_issueAllowed (qs : List DownRequest) : (s.handAnchor qs).issueAllowed = s.issueAllowed := rfl
@[simp] theorem State.handAnchor_regions (qs : List DownRequest) : (s.handAnchor qs).regions = s.regions := rfl
@[simp] theorem State.handAnchor_directory (qs : List DownRequest) : (s.handAnchor qs).directory = s.directory := rfl
@[simp] theorem State.handAnchor_log (qs : List DownRequest) : (s.handAnchor qs).log = s.log := rfl
@[simp] theorem State.handAnchor_writer (qs : List DownRequest) : (s.handAnchor qs).writer = s.writer := rfl
@[simp] theorem State.handAnchor_engine (qs : List DownRequest) : (s.handAnchor qs).engine = s.engine := rfl
@[simp] theorem State.handAnchor_startup (qs : List DownRequest) : (s.handAnchor qs).startup = s.startup := rfl
@[simp] theorem State.handAnchor_faults (qs : List DownRequest) : (s.handAnchor qs).faults = s.faults := rfl
@[simp] theorem State.handAnchor_notices (qs : List DownRequest) : (s.handAnchor qs).notices = s.notices := rfl
@[simp] theorem State.handAnchor_table (qs : List DownRequest) : (s.handAnchor qs).table = s.table := rfl
@[simp] theorem State.handAnchor_dport (qs : List DownRequest) : (s.handAnchor qs).dport = { s.dport with anchorQueue := s.dport.anchorQueue ++ qs } := rfl
@[simp] theorem State.handAnchor_params (qs : List DownRequest) : (s.handAnchor qs).params = s.params := rfl
@[simp] theorem State.handAnchor_timebase (qs : List DownRequest) : (s.handAnchor qs).timebase = s.timebase := rfl
@[simp] theorem State.handAnchor_link (qs : List DownRequest) : (s.handAnchor qs).link = s.link := rfl
@[simp] theorem State.handAnchor_responses (qs : List DownRequest) : (s.handAnchor qs).responses = s.responses := rfl
@[simp] theorem State.handAnchor_issued (qs : List DownRequest) : (s.handAnchor qs).issued = s.issued := rfl
@[simp] theorem State.handAnchor_freeCount (qs : List DownRequest) : (s.handAnchor qs).freeCount = s.freeCount := rfl

/-! `State.handLog` -/

@[simp] theorem State.handLog_pending (qs : List DownRequest) : (s.handLog qs).pending = s.pending := rfl
@[simp] theorem State.handLog_inReset (qs : List DownRequest) : (s.handLog qs).inReset = s.inReset := rfl
@[simp] theorem State.handLog_msize (qs : List DownRequest) : (s.handLog qs).msize = s.msize := rfl
@[simp] theorem State.handLog_device (qs : List DownRequest) : (s.handLog qs).device = s.device := rfl
@[simp] theorem State.handLog_powerFail (qs : List DownRequest) : (s.handLog qs).powerFail = s.powerFail := rfl
@[simp] theorem State.handLog_issueAllowed (qs : List DownRequest) : (s.handLog qs).issueAllowed = s.issueAllowed := rfl
@[simp] theorem State.handLog_regions (qs : List DownRequest) : (s.handLog qs).regions = s.regions := rfl
@[simp] theorem State.handLog_directory (qs : List DownRequest) : (s.handLog qs).directory = s.directory := rfl
@[simp] theorem State.handLog_log (qs : List DownRequest) : (s.handLog qs).log = s.log := rfl
@[simp] theorem State.handLog_writer (qs : List DownRequest) : (s.handLog qs).writer = s.writer := rfl
@[simp] theorem State.handLog_engine (qs : List DownRequest) : (s.handLog qs).engine = s.engine := rfl
@[simp] theorem State.handLog_startup (qs : List DownRequest) : (s.handLog qs).startup = s.startup := rfl
@[simp] theorem State.handLog_faults (qs : List DownRequest) : (s.handLog qs).faults = s.faults := rfl
@[simp] theorem State.handLog_notices (qs : List DownRequest) : (s.handLog qs).notices = s.notices := rfl
@[simp] theorem State.handLog_table (qs : List DownRequest) : (s.handLog qs).table = s.table := rfl
@[simp] theorem State.handLog_dport (qs : List DownRequest) : (s.handLog qs).dport = { s.dport with logQueue := s.dport.logQueue ++ qs } := rfl
@[simp] theorem State.handLog_params (qs : List DownRequest) : (s.handLog qs).params = s.params := rfl
@[simp] theorem State.handLog_timebase (qs : List DownRequest) : (s.handLog qs).timebase = s.timebase := rfl
@[simp] theorem State.handLog_link (qs : List DownRequest) : (s.handLog qs).link = s.link := rfl
@[simp] theorem State.handLog_responses (qs : List DownRequest) : (s.handLog qs).responses = s.responses := rfl
@[simp] theorem State.handLog_issued (qs : List DownRequest) : (s.handLog qs).issued = s.issued := rfl
@[simp] theorem State.handLog_freeCount (qs : List DownRequest) : (s.handLog qs).freeCount = s.freeCount := rfl

/-! `State.handRoll` -/

@[simp] theorem State.handRoll_pending (qs : List DownRequest) : (s.handRoll qs).pending = s.pending := rfl
@[simp] theorem State.handRoll_inReset (qs : List DownRequest) : (s.handRoll qs).inReset = s.inReset := rfl
@[simp] theorem State.handRoll_msize (qs : List DownRequest) : (s.handRoll qs).msize = s.msize := rfl
@[simp] theorem State.handRoll_device (qs : List DownRequest) : (s.handRoll qs).device = s.device := rfl
@[simp] theorem State.handRoll_powerFail (qs : List DownRequest) : (s.handRoll qs).powerFail = s.powerFail := rfl
@[simp] theorem State.handRoll_issueAllowed (qs : List DownRequest) : (s.handRoll qs).issueAllowed = s.issueAllowed := rfl
@[simp] theorem State.handRoll_regions (qs : List DownRequest) : (s.handRoll qs).regions = s.regions := rfl
@[simp] theorem State.handRoll_directory (qs : List DownRequest) : (s.handRoll qs).directory = s.directory := rfl
@[simp] theorem State.handRoll_log (qs : List DownRequest) : (s.handRoll qs).log = s.log := rfl
@[simp] theorem State.handRoll_writer (qs : List DownRequest) : (s.handRoll qs).writer = s.writer := rfl
@[simp] theorem State.handRoll_engine (qs : List DownRequest) : (s.handRoll qs).engine = s.engine := rfl
@[simp] theorem State.handRoll_startup (qs : List DownRequest) : (s.handRoll qs).startup = s.startup := rfl
@[simp] theorem State.handRoll_faults (qs : List DownRequest) : (s.handRoll qs).faults = s.faults := rfl
@[simp] theorem State.handRoll_notices (qs : List DownRequest) : (s.handRoll qs).notices = s.notices := rfl
@[simp] theorem State.handRoll_table (qs : List DownRequest) : (s.handRoll qs).table = s.table := rfl
@[simp] theorem State.handRoll_dport (qs : List DownRequest) : (s.handRoll qs).dport = { s.dport with rollQueue := s.dport.rollQueue ++ qs } := rfl
@[simp] theorem State.handRoll_params (qs : List DownRequest) : (s.handRoll qs).params = s.params := rfl
@[simp] theorem State.handRoll_timebase (qs : List DownRequest) : (s.handRoll qs).timebase = s.timebase := rfl
@[simp] theorem State.handRoll_link (qs : List DownRequest) : (s.handRoll qs).link = s.link := rfl
@[simp] theorem State.handRoll_responses (qs : List DownRequest) : (s.handRoll qs).responses = s.responses := rfl
@[simp] theorem State.handRoll_issued (qs : List DownRequest) : (s.handRoll qs).issued = s.issued := rfl
@[simp] theorem State.handRoll_freeCount (qs : List DownRequest) : (s.handRoll qs).freeCount = s.freeCount := rfl

/-! `State.holdFrame` -/

@[simp] theorem State.holdFrame_pending (f : Frame) : (s.holdFrame f).pending = s.pending := rfl
@[simp] theorem State.holdFrame_inReset (f : Frame) : (s.holdFrame f).inReset = s.inReset := rfl
@[simp] theorem State.holdFrame_msize (f : Frame) : (s.holdFrame f).msize = s.msize := rfl
@[simp] theorem State.holdFrame_device (f : Frame) : (s.holdFrame f).device = s.device := rfl
@[simp] theorem State.holdFrame_powerFail (f : Frame) : (s.holdFrame f).powerFail = s.powerFail := rfl
@[simp] theorem State.holdFrame_issueAllowed (f : Frame) : (s.holdFrame f).issueAllowed = s.issueAllowed := rfl
@[simp] theorem State.holdFrame_regions (f : Frame) : (s.holdFrame f).regions = s.regions := rfl
@[simp] theorem State.holdFrame_directory (f : Frame) : (s.holdFrame f).directory = s.directory := rfl
@[simp] theorem State.holdFrame_log (f : Frame) : (s.holdFrame f).log = s.log := rfl
@[simp] theorem State.holdFrame_writer (f : Frame) : (s.holdFrame f).writer = s.writer := rfl
@[simp] theorem State.holdFrame_engine (f : Frame) : (s.holdFrame f).engine = s.engine := rfl
@[simp] theorem State.holdFrame_startup (f : Frame) : (s.holdFrame f).startup = s.startup := rfl
@[simp] theorem State.holdFrame_faults (f : Frame) : (s.holdFrame f).faults = s.faults := rfl
@[simp] theorem State.holdFrame_notices (f : Frame) : (s.holdFrame f).notices = s.notices := rfl
@[simp] theorem State.holdFrame_table (f : Frame) : (s.holdFrame f).table = s.table := rfl
@[simp] theorem State.holdFrame_dport (f : Frame) : (s.holdFrame f).dport = s.dport := rfl
@[simp] theorem State.holdFrame_params (f : Frame) : (s.holdFrame f).params = s.params := rfl
@[simp] theorem State.holdFrame_timebase (f : Frame) : (s.holdFrame f).timebase = s.timebase := rfl
@[simp] theorem State.holdFrame_link (f : Frame) : (s.holdFrame f).link = { s.link with frame := some f } := rfl
@[simp] theorem State.holdFrame_responses (f : Frame) : (s.holdFrame f).responses = s.responses := rfl
@[simp] theorem State.holdFrame_issued (f : Frame) : (s.holdFrame f).issued = s.issued := rfl
@[simp] theorem State.holdFrame_freeCount (f : Frame) : (s.holdFrame f).freeCount = s.freeCount := rfl

/-! ## Region contexts -/

/-- A region's context after an update of a region. -/
theorem State.region_updRegion (r q : RegionId) (f : Region → Region) :
    (s.updRegion r f).region q = if r = q then f (s.region r) else s.region q := by
  simp only [State.region, State.updRegion, Vector.get_eq_getElem, Vector.getElem_set, Fin.ext_iff]

@[simp] theorem State.region_updRegion_self (r : RegionId) (f : Region → Region) :
    (s.updRegion r f).region r = f (s.region r) := by simp [State.region_updRegion]

/-- Two states with the same contexts have the same context of each region. -/
theorem State.region_congr {s t : State} (h : t.regions = s.regions) (r : RegionId) : t.region r = s.region r := by
  simp [State.region, h]

/-! The other updates leave every context as it is. -/

@[simp] theorem State.region_updLog (q : RegionId) (f : LogState → LogState) : (s.updLog f).region q = s.region q := rfl
@[simp] theorem State.region_updWriter (q : RegionId) (f : LogWriter → LogWriter) : (s.updWriter f).region q = s.region q := rfl
@[simp] theorem State.region_updEngine (q : RegionId) (f : Engine → Engine) : (s.updEngine f).region q = s.region q := rfl
@[simp] theorem State.region_updStartup (q : RegionId) (f : Startup → Startup) : (s.updStartup f).region q = s.region q := rfl
@[simp] theorem State.region_updDport (q : RegionId) (f : Downstream → Downstream) : (s.updDport f).region q = s.region q := rfl
@[simp] theorem State.region_updPowerFail (q : RegionId) (f : PowerFail → PowerFail) : (s.updPowerFail f).region q = s.region q := rfl
@[simp] theorem State.region_setDevice (q : RegionId) (d : DeviceState) : (s.setDevice d).region q = s.region q := rfl
@[simp] theorem State.region_setNotice (q : RegionId) (n : Source) : (s.setNotice n).region q = s.region q := rfl
@[simp] theorem State.region_clearNotice (q : RegionId) (n : Source) : (s.clearNotice n).region q = s.region q := rfl
@[simp] theorem State.region_updEntry (q : RegionId) (t : HostTag) (f : Entry → Entry) : (s.updEntry t f).region q = s.region q := rfl
@[simp] theorem State.region_moveEntries (q : RegionId) (ts : List HostTag) (st : EntryState) : (s.moveEntries ts st).region q = s.region q := rfl
@[simp] theorem State.region_releaseWrite (q : RegionId) (t : HostTag) : (s.releaseWrite t).region q = s.region q := rfl
@[simp] theorem State.region_setTag (q : RegionId) (t : DownTag) (x : Tag) : (s.setTag t x).region q = s.region q := rfl
@[simp] theorem State.region_handAnchor (q : RegionId) (qs : List DownRequest) : (s.handAnchor qs).region q = s.region q := rfl
@[simp] theorem State.region_handLog (q : RegionId) (qs : List DownRequest) : (s.handLog qs).region q = s.region q := rfl
@[simp] theorem State.region_handRoll (q : RegionId) (qs : List DownRequest) : (s.handRoll qs).region q = s.region q := rfl
@[simp] theorem State.region_freeDirectory (q : RegionId) (r : RegionId) : (s.freeDirectory r).region q = s.region q := rfl
@[simp] theorem State.region_dropPending (q : RegionId) (r : RegionId) (ls : List Nat) : (s.dropPending r ls).region q = s.region q := rfl
@[simp] theorem State.region_makeDurable (q : RegionId) (r : RegionId) (ls : List Nat) : (s.makeDurable r ls).region q = s.region q := rfl
@[simp] theorem State.region_holdFrame (q : RegionId) (f : Frame) : (s.holdFrame f).region q = s.region q := rfl

/-! ## Notices -/

/-- A source's flag after a source's event. -/
theorem State.flag_setNotice (n m : Source) : (s.setNotice n).flag m = (decide (n = m) || s.flag m) := by
  simp only [State.flag, State.setNotice, Vector.get_eq_getElem, Vector.getElem_set, Fin.ext_iff]
  split <;> simp_all

/-- A source's flag after a claim of a source. -/
theorem State.flag_clearNotice (n m : Source) : (s.clearNotice n).flag m = (!decide (n = m) && s.flag m) := by
  simp only [State.flag, State.clearNotice, Vector.get_eq_getElem, Vector.getElem_set, Fin.ext_iff]
  split <;> simp_all

/-! The other updates leave every flag as it is. -/

@[simp] theorem State.flag_updLog (m : Source) (f : LogState → LogState) : (s.updLog f).flag m = s.flag m := rfl
@[simp] theorem State.flag_updWriter (m : Source) (f : LogWriter → LogWriter) : (s.updWriter f).flag m = s.flag m := rfl
@[simp] theorem State.flag_updEngine (m : Source) (f : Engine → Engine) : (s.updEngine f).flag m = s.flag m := rfl
@[simp] theorem State.flag_updStartup (m : Source) (f : Startup → Startup) : (s.updStartup f).flag m = s.flag m := rfl
@[simp] theorem State.flag_updDport (m : Source) (f : Downstream → Downstream) : (s.updDport f).flag m = s.flag m := rfl
@[simp] theorem State.flag_updPowerFail (m : Source) (f : PowerFail → PowerFail) : (s.updPowerFail f).flag m = s.flag m := rfl
@[simp] theorem State.flag_setDevice (m : Source) (d : DeviceState) : (s.setDevice d).flag m = s.flag m := rfl
@[simp] theorem State.flag_updEntry (m : Source) (t : HostTag) (f : Entry → Entry) : (s.updEntry t f).flag m = s.flag m := rfl
@[simp] theorem State.flag_moveEntries (m : Source) (ts : List HostTag) (st : EntryState) : (s.moveEntries ts st).flag m = s.flag m := rfl
@[simp] theorem State.flag_releaseWrite (m : Source) (t : HostTag) : (s.releaseWrite t).flag m = s.flag m := rfl
@[simp] theorem State.flag_setTag (m : Source) (t : DownTag) (x : Tag) : (s.setTag t x).flag m = s.flag m := rfl
@[simp] theorem State.flag_handAnchor (m : Source) (qs : List DownRequest) : (s.handAnchor qs).flag m = s.flag m := rfl
@[simp] theorem State.flag_handLog (m : Source) (qs : List DownRequest) : (s.handLog qs).flag m = s.flag m := rfl
@[simp] theorem State.flag_handRoll (m : Source) (qs : List DownRequest) : (s.handRoll qs).flag m = s.flag m := rfl
@[simp] theorem State.flag_freeDirectory (m : Source) (r : RegionId) : (s.freeDirectory r).flag m = s.flag m := rfl
@[simp] theorem State.flag_dropPending (m : Source) (r : RegionId) (ls : List Nat) : (s.dropPending r ls).flag m = s.flag m := rfl
@[simp] theorem State.flag_makeDurable (m : Source) (r : RegionId) (ls : List Nat) : (s.makeDurable r ls).flag m = s.flag m := rfl
@[simp] theorem State.flag_holdFrame (m : Source) (f : Frame) : (s.holdFrame f).flag m = s.flag m := rfl
@[simp] theorem State.flag_updRegion (m : Source) (r : RegionId) (f : Region → Region) : (s.updRegion r f).flag m = s.flag m := rfl

/-! ## Tags -/

/-- A tag's entry after an entry of the tag table is set. -/
theorem State.tag_setTag (t u : DownTag) (x : Tag) : (s.setTag t x).tag u = if t = u then x else s.tag u := by
  simp only [State.tag, State.setTag, State.updDport, Vector.get_eq_getElem, Vector.getElem_set, Fin.ext_iff]

/-! The other updates leave every tag as it is. -/

@[simp] theorem State.tag_updLog (g : DownTag) (f : LogState → LogState) : (s.updLog f).tag g = s.tag g := rfl
@[simp] theorem State.tag_updWriter (g : DownTag) (f : LogWriter → LogWriter) : (s.updWriter f).tag g = s.tag g := rfl
@[simp] theorem State.tag_updEngine (g : DownTag) (f : Engine → Engine) : (s.updEngine f).tag g = s.tag g := rfl
@[simp] theorem State.tag_updStartup (g : DownTag) (f : Startup → Startup) : (s.updStartup f).tag g = s.tag g := rfl
@[simp] theorem State.tag_updPowerFail (g : DownTag) (f : PowerFail → PowerFail) : (s.updPowerFail f).tag g = s.tag g := rfl
@[simp] theorem State.tag_setDevice (g : DownTag) (d : DeviceState) : (s.setDevice d).tag g = s.tag g := rfl
@[simp] theorem State.tag_setNotice (g : DownTag) (n : Source) : (s.setNotice n).tag g = s.tag g := rfl
@[simp] theorem State.tag_clearNotice (g : DownTag) (n : Source) : (s.clearNotice n).tag g = s.tag g := rfl
@[simp] theorem State.tag_updEntry (g : DownTag) (t : HostTag) (f : Entry → Entry) : (s.updEntry t f).tag g = s.tag g := rfl
@[simp] theorem State.tag_moveEntries (g : DownTag) (ts : List HostTag) (st : EntryState) : (s.moveEntries ts st).tag g = s.tag g := rfl
@[simp] theorem State.tag_releaseWrite (g : DownTag) (t : HostTag) : (s.releaseWrite t).tag g = s.tag g := rfl
@[simp] theorem State.tag_handAnchor (g : DownTag) (qs : List DownRequest) : (s.handAnchor qs).tag g = s.tag g := rfl
@[simp] theorem State.tag_handLog (g : DownTag) (qs : List DownRequest) : (s.handLog qs).tag g = s.tag g := rfl
@[simp] theorem State.tag_handRoll (g : DownTag) (qs : List DownRequest) : (s.handRoll qs).tag g = s.tag g := rfl
@[simp] theorem State.tag_freeDirectory (g : DownTag) (r : RegionId) : (s.freeDirectory r).tag g = s.tag g := rfl
@[simp] theorem State.tag_dropPending (g : DownTag) (r : RegionId) (ls : List Nat) : (s.dropPending r ls).tag g = s.tag g := rfl
@[simp] theorem State.tag_makeDurable (g : DownTag) (r : RegionId) (ls : List Nat) : (s.makeDurable r ls).tag g = s.tag g := rfl
@[simp] theorem State.tag_holdFrame (g : DownTag) (f : Frame) : (s.holdFrame f).tag g = s.tag g := rfl
@[simp] theorem State.tag_updRegion (g : DownTag) (r : RegionId) (f : Region → Region) : (s.updRegion r f).tag g = s.tag g := rfl

end Sys2Proof.Machine
end

