-- ==== Sys2Proof/Laws/Folds.lean ====
section
/-! SUPPORT. The operations that update every tag, every region or every HELD group one after another, each as one update:
later proofs rewrite with these and never unfold the folds. -/

namespace Sys2Proof.Machine

/-- A fold that updates distinct places of a vector one by one updates each of them once. -/
theorem get_foldl_set {α : Type} {n : Nat} (f : α → α) (l : List (Fin n)) (hl : l.Nodup) (v : Vector α n) (i : Fin n) :
    (l.foldl (fun v k => v.set k.val (f (v.get k))) v).get i = if i ∈ l then f (v.get i) else v.get i := by
  induction l generalizing v with
  | nil => simp
  | cons k l ih =>
    obtain ⟨hk, hl⟩ := List.nodup_cons.mp hl
    rw [List.foldl_cons, ih hl]
    by_cases h : i = k
    · subst h
      simp [hk, Vector.get_eq_getElem]
    · have hv : k.val ≠ i.val := fun j => h (Fin.ext j.symm)
      simp [h, Vector.get_eq_getElem, hv]

theorem foldl_set_eq {α : Type} {n : Nat} (f : α → α) (l : List (Fin n)) (hl : l.Nodup) (ha : ∀ i, i ∈ l)
    (v : Vector α n) : l.foldl (fun v k => v.set k.val (f (v.get k))) v = Vector.ofFn fun i => f (v.get i) := by
  ext i hi
  have := get_foldl_set f l hl v ⟨i, hi⟩
  simpa [ha, Vector.get_eq_getElem] using this

theorem allTags_nodup : allTags.Nodup := List.nodup_finRange 32

theorem mem_allTags (g : DownTag) : g ∈ allTags := List.mem_finRange g

theorem allRegions_nodup : allRegions.Nodup := by decide

theorem mem_allRegions (r : RegionId) : r ∈ allRegions := by revert r; decide

/-- Every tag is updated at once. -/
theorem State.mapTags_eq (s : State) (f : Tag → Tag) :
    s.mapTags f = { s with dport := { s.dport with tags := Vector.ofFn fun g => f (s.tag g) } } := by
  have h : ∀ (l : List DownTag) (s : State), l.foldl (fun s t => s.setTag t (f (s.tag t))) s =
      { s with dport := { s.dport with
                          tags := l.foldl (fun v k => v.set k.val (f (v.get k))) s.dport.tags } } := by
    intro l
    induction l with
    | nil => exact fun s => rfl
    | cons t l ih => intro s; rw [List.foldl_cons, ih]; rfl
  unfold State.mapTags
  rw [h, foldl_set_eq f allTags allTags_nodup mem_allTags]
  rfl

@[simp] theorem State.tag_mapTags (s : State) (f : Tag → Tag) (g : DownTag) : (s.mapTags f).tag g = f (s.tag g) := by
  rw [State.mapTags_eq]
  simp [State.tag, Vector.get_eq_getElem]

/-- Every region is updated at once. -/
theorem State.updRegions_eq (s : State) (f : Region → Region) :
    allRegions.foldl (fun s r => s.updRegion r f) s = { s with regions := Vector.ofFn fun r => f (s.region r) } := by
  have h : ∀ (l : List RegionId) (s : State), l.foldl (fun s r => s.updRegion r f) s =
      { s with regions := l.foldl (fun v k => v.set k.val (f (v.get k))) s.regions } := by
    intro l
    induction l with
    | nil => exact fun s => rfl
    | cons t l ih => intro s; rw [List.foldl_cons, ih]; rfl
  rw [h, foldl_set_eq f allRegions allRegions_nodup mem_allRegions]
  rfl

/-- A region after every region is updated. -/
theorem State.region_ofFn (s : State) (f : RegionId → Region) (r : RegionId) :
    ({ s with regions := Vector.ofFn f } : State).region r = f r := by
  simp [State.region, Vector.get_eq_getElem]

/-- Every drain set loses a tag, and nothing else changes. -/
theorem State.drained_eq (s : State) (t : HostTag) :
    s.drained t =
      { s with
        regions := Vector.ofFn fun r => { s.region r with drain := (s.region r).drain.filter (· ≠ t) }
        engine := { s.engine with drain := s.engine.drain.filter (· ≠ t) }
        log := { s.log with formatDrain := s.log.formatDrain.filter (· ≠ t) } } := by
  unfold State.drained
  rw [State.updRegions_eq]
  rfl

/-- Answering one entry, as one update. -/
theorem State.answer_update (s : State) (e : Entry) (reason : Reason) (data : List Word32) :
    s.answer e reason data =
      { s with
        responses := s.responses ++ [{ tag := e.tag, reason := reason, data := data }]
        table := s.table.filter fun x => x.tag ≠ e.tag
        regions := Vector.ofFn fun r => { s.region r with drain := (s.region r).drain.filter (· ≠ e.tag) }
        engine := { s.engine with drain := s.engine.drain.filter (· ≠ e.tag) }
        log := { s.log with formatDrain := s.log.formatDrain.filter (· ≠ e.tag) } } := by
  unfold State.answer
  rw [State.drained_eq]
  rfl

/-- A space event makes every HELD group retry-due, and nothing else changes. -/
theorem State.spaceEvent_eq (s : State) :
    s.spaceEvent = { s with writer := { s.writer with
      held := Vector.ofFn fun r => (s.writer.held.get r).map fun h => { h with retryDue := true } } } := by
  let f : Option HeldGroup → Option HeldGroup := Option.map fun h => { h with retryDue := true }
  have h : ∀ (l : List RegionId) (s : State), l.foldl (fun s r => s.updWriter fun w =>
      { w with held := w.held.set r.val (f (w.held.get r)) }) s =
      { s with writer := { s.writer with held := l.foldl (fun v k => v.set k.val (f (v.get k))) s.writer.held } } := by
    intro l
    induction l with
    | nil => exact fun s => rfl
    | cons t l ih => intro s; rw [List.foldl_cons, ih]; rfl
  unfold State.spaceEvent
  refine (h allRegions s).trans ?_
  rw [foldl_set_eq f allRegions allRegions_nodup mem_allRegions]

/-- Withdrawing and discarding a stopped owner's requests, as one update. -/
theorem State.stopOwner_eq (s : State) (o : Owner) :
    s.stopOwner o =
      { s with dport :=
        { s.dport with
          anchorQueue := s.dport.anchorQueue.filter fun q => q.owner ≠ o
          logQueue := s.dport.logQueue.filter fun q => q.owner ≠ o
          rollQueue := s.dport.rollQueue.filter fun q => q.owner ≠ o
          tags := Vector.ofFn fun g => Tag.discardedBy o (s.tag g) } } := by
  unfold State.stopOwner State.discardOutcomes
  rw [State.mapTags_eq]
  rfl

/-- The end of a walk, as one update. -/
theorem State.endWalk_eq (s : State) :
    s.endWalk =
      { s.stopOwner .rollback with
        engine := { s.engine with walk := none, recovery := false, drain := [], index := none, header := none, blocks := [],
                                  buffer := [], lineIndex := none, restore := none } } := by
  unfold State.endWalk
  rw [State.stopOwner_eq]
  rfl

/-- All work abandoned at the assertion of reset, as one update. -/
theorem State.abandonWork_eq (s : State) :
    s.abandonWork =
      { s with
        table := []
        dport := { tags := Vector.replicate 32 .free, anchorQueue := [], logQueue := [], rollQueue := [], share := 0 }
        writer := { s.writer with builder := none, closing := [], deferred := none, granted := none,
                                  held := Vector.replicate 8 none }
        engine := { s.engine with queue := [], walk := none, recovery := false, drain := [], index := none,
                                  header := none, blocks := [], buffer := [], lineIndex := none, restore := none }
        log := { s.log with anchor := none, anchorWanted := false, deferred := none, recoveryWanted := false,
                            formatPending := false, formatDrain := [] } } := by
  have h : (Vector.ofFn fun g : DownTag => Tag.discardedBy .rollback ((Vector.replicate 32 Tag.free).get g)) =
      Vector.replicate 32 .free := by
    ext i hi
    simp [Vector.get_eq_getElem, Tag.discardedBy]
  unfold State.abandonWork
  simp only [State.endWalk_eq, State.stopOwner_eq, State.updEngine, State.updWriter, State.updDport, State.updLog,
    State.tag, List.filter_nil, h]

/-- A period's end in RUN, as one update. -/
theorem State.tick_eq (s : State) :
    s.tick =
      { s with
        timebase := { running := s.params.tickPeriod, elapsed := s.timebase.elapsed + s.timebase.running }
        regions := if s.device = .run then Vector.ofFn fun r => Region.ticked (s.region r) else s.regions } := by
  unfold State.tick
  dsimp only
  split
  · rw [State.updRegions_eq]; rfl
  · rfl

theorem State.region_tick (s : State) (r : RegionId) :
    s.tick.region r = if s.device = .run then Region.ticked (s.region r) else s.region r := by
  rw [State.tick_eq]
  split <;> simp [State.region, Vector.get_eq_getElem]

/-- What an issue leaves standing: everything but the downstream port, the record of issues and, for a host entry, the
table, where that entry becomes ISSUED. -/
theorem State.issueRequest_eq (s : State) (t : DownTag) (cls : IssueClass) (q : DownRequest) :
    ∃ d table, s.issueRequest t cls q = { s with dport := d, table := table, issued := s.issued ++ [(t, q)] } ∧
      d.share = s.shareAfter cls ∧
      (table = s.table ∨ ∃ g, table = s.table.map fun e => if e.tag = g then { e with state := .issued } else e) := by
  cases cls
  case host =>
    cases h : q.owner
    case entry g =>
      refine ⟨(s.issueRequest t .host q).dport, s.table.map fun e => if e.tag = g then { e with state := .issued } else e,
        ?_, rfl, .inr ⟨g, rfl⟩⟩
      simp only [State.issueRequest, State.leaveClass, h]
      rfl
    all_goals
      refine ⟨(s.issueRequest t .host q).dport, s.table, ?_, rfl, .inl rfl⟩
      simp only [State.issueRequest, State.leaveClass, h]
      rfl
  case anchor =>
    refine ⟨(s.issueRequest t .anchor q).dport, s.table, ?_, rfl, .inl rfl⟩
    simp only [State.issueRequest, State.leaveClass, State.updDport, State.setTag]
  case logWriter =>
    refine ⟨(s.issueRequest t .logWriter q).dport, s.table, ?_, rfl, .inl rfl⟩
    simp only [State.issueRequest, State.leaveClass, State.updDport, State.setTag]
  case rollback =>
    refine ⟨(s.issueRequest t .rollback q).dport, s.table, ?_, rfl, .inl rfl⟩
    simp only [State.issueRequest, State.leaveClass, State.updDport, State.setTag]

/-- An issue is of the arbiter's choice under the lowest FREE tag, when the part may issue; otherwise nothing changes. -/
theorem State.issueNext_cases (s : State) :
    s.issueNext = s ∨ ∃ t cls q, s.lowestFree = some t ∧ s.choose = some (cls, q) ∧ s.issueNext = s.issueRequest t cls q := by
  unfold State.issueNext
  split
  · split
    · next t cls q h k => exact .inr ⟨t, cls, q, h, k, rfl⟩
    · exact .inl rfl
  · exact .inl rfl

end Sys2Proof.Machine
end

