-- ==== Sys2Proof/Laws/Kept.lean ====
section
/-! SUPPORT. What the steps of the part's blocks keep. `Kept s t` says once everything the operations below the level of
a command leave alone or only add to; this file builds it for the updates every block shares. -/

namespace Sys2Proof.Machine

/-- The tags in the Request Table. -/
def State.tags (s : State) : List HostTag := s.table.map Entry.tag

/-- No entry with a tag is still in WAIT_ORDER. -/
def Begun (s : State) (g : HostTag) : Prop := ∀ e ∈ s.table, e.tag = g → e.state ≠ .waitOrder

/-- What no operation below the level of a command changes. -/
structure Same (s t : State) : Prop where
  pending : t.pending = s.pending
  inReset : t.inReset = s.inReset
  msize : t.msize = s.msize
  issueAllowed : t.issueAllowed = s.issueAllowed
  params : t.params = s.params
  timebase : t.timebase = s.timebase
  link : t.link = s.link
  priority : t.notices.priority = s.notices.priority
  threshold : t.notices.threshold = s.notices.threshold
  issued : t.issued = s.issued
  share : t.dport.share = s.dport.share

/-- The device state, the Power-Fail Controller and the identity of the log: HALTED and QUIESCING are not left for
service, START is not entered, and the geometry and generation stand once START is left. -/
structure DevKept (s t : State) : Prop where
  halted : s.device = .halted → t.device = .halted
  quiescing : s.device = .quiescing → t.device = .quiescing ∨ t.device = .halted
  start : t.device = .start → s.device = .start
  scanning : t.device = .scanning → s.device = .scanning ∨ s.device = .start
  power : PowerLaw s → PowerLaw t
  log : s.device ≠ .start → t.log.geometry = s.log.geometry ∧ t.log.generation = s.log.generation

/-- Regions and directory: staged descriptors stand, a live one changes only to the staged copy, and the directory and the
windows stay within their laws. -/
structure RegKept (s t : State) : Prop where
  staged : ∀ r, (t.region r).staged = (s.region r).staged
  live : ∀ r, (t.region r).live = (s.region r).live ∨ (t.region r).live = (s.region r).staged
  age : ∀ r, (s.region r).age ≤ 65535 → (t.region r).age ≤ 65535
  directory : s.directory.length ≤ 256 → t.directory.length ≤ 256
  law : DirectoryLaw s → DirectoryLaw t
  windows : WindowLaw s → WindowLaw t

/-- Faults and notices: the queue stays within its size, and flags are only set. -/
structure NoteKept (s t : State) : Prop where
  faults : s.faults.length ≤ 4 → t.faults.length ≤ 4
  flags : ∀ n, s.flag n = true → t.flag n = true
  zero : t.flag 0 = s.flag 0

/-- Everything kept that does not rest on the table's tags being distinct. -/
structure Base (s t : State) : Prop where
  same : Same s t
  dev : DevKept s t
  reg : RegKept s t
  note : NoteKept s t
  sub : t.tags.Sublist s.tags
  responses : ∃ l, t.responses = s.responses ++ l
  begun : ∀ g, Begun s g → Begun t g

/-- Everything kept: also that each request accepted stays accounted for by one entry or one response, and same-line
order. -/
structure Kept (s t : State) : Prop extends Base s t where
  account : s.tags.Nodup → ∀ g, accounted t g = accounted s g
  line : s.tags.Nodup → LineLaw s → LineLaw t

/-! ## Order -/

theorem Same.refl (s : State) : Same s s := ⟨rfl, rfl, rfl, rfl, rfl, rfl, rfl, rfl, rfl, rfl, rfl⟩

theorem Same.trans {s t u : State} (a : Same s t) (b : Same t u) : Same s u :=
  ⟨b.pending.trans a.pending, b.inReset.trans a.inReset, b.msize.trans a.msize, b.issueAllowed.trans a.issueAllowed,
   b.params.trans a.params, b.timebase.trans a.timebase, b.link.trans a.link, b.priority.trans a.priority,
   b.threshold.trans a.threshold, b.issued.trans a.issued, b.share.trans a.share⟩

theorem DevKept.trans {s t u : State} (a : DevKept s t) (b : DevKept t u) : DevKept s u where
  halted h := b.halted (a.halted h)
  quiescing h := (a.quiescing h).elim b.quiescing fun h => .inr (b.halted h)
  start h := a.start (b.start h)
  scanning h := (b.scanning h).elim a.scanning fun h => .inr (a.start h)
  power h := b.power (a.power h)
  log h :=
    let h' := b.log fun k => h (a.start k)
    ⟨h'.1.trans (a.log h).1, h'.2.trans (a.log h).2⟩

theorem RegKept.trans {s t u : State} (a : RegKept s t) (b : RegKept t u) : RegKept s u where
  staged r := (b.staged r).trans (a.staged r)
  live r := by
    rcases b.live r with h | h
    · rw [h]; exact a.live r
    · exact .inr (h.trans (a.staged r))
  age r h := b.age r (a.age r h)
  directory h := b.directory (a.directory h)
  law h := b.law (a.law h)
  windows h := b.windows (a.windows h)

theorem NoteKept.trans {s t u : State} (a : NoteKept s t) (b : NoteKept t u) : NoteKept s u :=
  ⟨fun h => b.faults (a.faults h), fun n h => b.flags n (a.flags n h), b.zero.trans a.zero⟩

theorem Base.trans {s t u : State} (a : Base s t) (b : Base t u) : Base s u where
  same := a.same.trans b.same
  dev := a.dev.trans b.dev
  reg := a.reg.trans b.reg
  note := a.note.trans b.note
  sub := b.sub.trans a.sub
  responses := by
    obtain ⟨l, hl⟩ := a.responses
    obtain ⟨m, hm⟩ := b.responses
    exact ⟨l ++ m, by rw [hm, hl, List.append_assoc]⟩
  begun g h := b.begun g (a.begun g h)

theorem Kept.trans {s t u : State} (a : Kept s t) (b : Kept t u) : Kept s u where
  toBase := a.toBase.trans b.toBase
  account h g := (b.account (a.sub.nodup h) g).trans (a.account h g)
  line h k := b.line (a.sub.nodup h) (a.line h k)

/-! ## Parts that stand -/

theorem PowerLaw.congr {s t : State} (h : PowerLaw s) (hd : t.device = s.device) (hp : t.powerFail = s.powerFail)
    (hr : t.inReset = s.inReset) : PowerLaw t := by
  obtain ⟨a, b, c, d, e⟩ := h
  exact ⟨by rwa [hd, hp], by rwa [hd, hp], by rwa [hd, hp], by rwa [hd, hp], by rwa [hd, hp, hr]⟩

theorem DevKept.of_eq {s t : State} (hd : t.device = s.device) (hp : t.powerFail = s.powerFail)
    (hr : t.inReset = s.inReset) (hg : t.log.geometry = s.log.geometry) (hn : t.log.generation = s.log.generation) :
    DevKept s t where
  halted h := hd.trans h
  quiescing h := .inl (hd.trans h)
  start h := hd.symm.trans h
  scanning h := .inl (hd.symm.trans h)
  power h := h.congr hd hp hr
  log _ := ⟨hg, hn⟩

/-- The windows stand when descriptors, geometry and memory size do. -/
theorem WindowLaw.congr {s t : State} (h : WindowLaw s) (hl : ∀ r, (t.region r).live = (s.region r).live)
    (hs : ∀ r, (t.region r).staged = (s.region r).staged) (hm : t.msize = s.msize)
    (hg : t.log.geometry = s.log.geometry)
    (hd : t.device = .start ∨ t.device = .scanning → s.device = .start ∨ s.device = .scanning) : WindowLaw t where
  ring g k := by rw [hg] at k; simpa only [State.memorySize, hm] using h.ring g k
  below r := by simpa only [hl, State.memorySize, hm] using h.below r
  area r g := by simpa only [hl, hg] using h.area r g
  apart q r := by simpa only [hl] using h.apart q r
  startup k r := by simpa only [hl, hs] using h.startup (hd k) r

theorem RegKept.of_eq {s t : State} (hr : t.regions = s.regions) (hd : t.directory = s.directory)
    (hs : t.device = .start ∨ t.device = .scanning → s.device = .start ∨ s.device = .scanning)
    (hm : t.msize = s.msize) (hg : t.log.geometry = s.log.geometry) : RegKept s t where
  staged r := by rw [State.region_congr hr]
  live r := .inl (by rw [State.region_congr hr])
  age r h := by rwa [State.region_congr hr]
  directory h := by rwa [hd]
  law h := ⟨by simpa [hd, State.region_congr hr] using h.running, fun k => hd.trans (h.startup (hs k))⟩
  windows h := h.congr (fun r => by rw [State.region_congr hr]) (fun r => by rw [State.region_congr hr]) hm hg hs

theorem NoteKept.of_eq {s t : State} (hf : t.faults = s.faults) (hn : t.notices.flags = s.notices.flags) :
    NoteKept s t :=
  ⟨fun h => by rwa [hf], fun n h => by simpa [State.flag, hn] using h, by simp [State.flag, hn]⟩

/-- An update that leaves the table and the responses as they stand. -/
theorem Kept.of_table {s t : State} (same : Same s t) (dev : DevKept s t) (reg : RegKept s t) (note : NoteKept s t)
    (ht : t.table = s.table) (hr : t.responses = s.responses) : Kept s t where
  same := same
  dev := dev
  reg := reg
  note := note
  sub := by simp [State.tags, ht]
  responses := ⟨[], by simp [hr]⟩
  begun g h := by simpa [Begun, ht] using h
  account _ g := by simp [accounted, ht, hr]
  line _ h := by simpa [LineLaw, ht] using h

theorem Kept.refl (s : State) : Kept s s :=
  .of_table (.refl s) (.of_eq rfl rfl rfl rfl rfl) (.of_eq rfl rfl id rfl rfl) (.of_eq rfl rfl) rfl rfl

/-! ## Updates of one block -/

theorem Kept.updLog {s : State} (f : LogState → LogState) (hg : (f s.log).geometry = s.log.geometry)
    (hn : (f s.log).generation = s.log.generation) : Kept s (s.updLog f) :=
  .of_table ⟨rfl, rfl, rfl, rfl, rfl, rfl, rfl, rfl, rfl, rfl, rfl⟩ (.of_eq rfl rfl rfl hg hn) (.of_eq rfl rfl id rfl hg)
    (.of_eq rfl rfl) rfl rfl

theorem Kept.updWriter (s : State) (f : LogWriter → LogWriter) : Kept s (s.updWriter f) :=
  .of_table ⟨rfl, rfl, rfl, rfl, rfl, rfl, rfl, rfl, rfl, rfl, rfl⟩ (.of_eq rfl rfl rfl rfl rfl) (.of_eq rfl rfl id rfl rfl)
    (.of_eq rfl rfl) rfl rfl

theorem Kept.updEngine (s : State) (f : Engine → Engine) : Kept s (s.updEngine f) :=
  .of_table ⟨rfl, rfl, rfl, rfl, rfl, rfl, rfl, rfl, rfl, rfl, rfl⟩ (.of_eq rfl rfl rfl rfl rfl) (.of_eq rfl rfl id rfl rfl)
    (.of_eq rfl rfl) rfl rfl

theorem Kept.updStartup (s : State) (f : Startup → Startup) : Kept s (s.updStartup f) :=
  .of_table ⟨rfl, rfl, rfl, rfl, rfl, rfl, rfl, rfl, rfl, rfl, rfl⟩ (.of_eq rfl rfl rfl rfl rfl) (.of_eq rfl rfl id rfl rfl)
    (.of_eq rfl rfl) rfl rfl

theorem Kept.updDport (s : State) (f : Downstream → Downstream) (h : (f s.dport).share = s.dport.share) :
    Kept s (s.updDport f) :=
  .of_table ⟨rfl, rfl, rfl, rfl, rfl, rfl, rfl, rfl, rfl, rfl, h⟩ (.of_eq rfl rfl rfl rfl rfl) (.of_eq rfl rfl id rfl rfl)
    (.of_eq rfl rfl) rfl rfl

theorem Kept.setTag (s : State) (t : DownTag) (x : Tag) : Kept s (s.setTag t x) := .updDport s _ rfl

theorem Kept.freeCount (s : State) (n : Nat) : Kept s { s with freeCount := n } :=
  .of_table ⟨rfl, rfl, rfl, rfl, rfl, rfl, rfl, rfl, rfl, rfl, rfl⟩ (.of_eq rfl rfl rfl rfl rfl) (.of_eq rfl rfl id rfl rfl)
    (.of_eq rfl rfl) rfl rfl

theorem Kept.setStalled (s : State) : Kept s (s.updPowerFail fun p => { p with stalled := true }) :=
  .of_table ⟨rfl, rfl, rfl, rfl, rfl, rfl, rfl, rfl, rfl, rfl, rfl⟩
    ⟨id, .inl, id, .inl, fun h => ⟨h.quiescing, h.halted, h.other, h.safeHalted, h.haltedSafe⟩, fun _ => ⟨rfl, rfl⟩⟩
    (.of_eq rfl rfl id rfl rfl) (.of_eq rfl rfl) rfl rfl

/-- A change of device state among those outside QUIESCING and HALTED, START entered from START only. -/
theorem Kept.setDevice {s : State} (d : DeviceState) (h1 : s.device ≠ .halted) (h2 : s.device ≠ .quiescing)
    (h3 : d ≠ .halted) (h4 : d ≠ .quiescing) (h5 : d = .start → s.device = .start)
    (h6 : d = .scanning → s.device = .scanning ∨ s.device = .start) : Kept s (s.setDevice d) :=
  .of_table ⟨rfl, rfl, rfl, rfl, rfl, rfl, rfl, rfl, rfl, rfl, rfl⟩
    ⟨fun h => absurd h h1, fun h => absurd h h2, h5, h6,
     fun h => ⟨fun k => absurd k h4, fun k => absurd k h3, fun _ _ => h.other h2 h1,
               fun k => absurd (h.safeHalted k) h1, fun k _ => absurd k h3⟩, fun _ => ⟨rfl, rfl⟩⟩
    (.of_eq rfl rfl (fun k => k.elim (fun k => .inl (h5 k)) fun k => (h6 k).symm) rfl rfl) (.of_eq rfl rfl) rfl rfl

theorem Kept.setNotice (s : State) (n : Source) (h : n ≠ 0) : Kept s (s.setNotice n) :=
  .of_table ⟨rfl, rfl, rfl, rfl, rfl, rfl, rfl, rfl, rfl, rfl, rfl⟩ (.of_eq rfl rfl rfl rfl rfl) (.of_eq rfl rfl id rfl rfl)
    ⟨id, fun m k => by simp [State.flag_setNotice, k], by simp [State.flag_setNotice, h]⟩ rfl rfl

theorem pushEntry_length (q : List FaultEntry) (e : FaultEntry) (h : q.length ≤ 4) : (pushEntry q e).length ≤ 4 := by
  unfold pushEntry
  split <;> simp_all [Config.faultQueueSize]; omega

theorem Kept.pushFault (s : State) (e : FaultEntry) : Kept s (s.pushFault e) :=
  .of_table ⟨rfl, rfl, rfl, rfl, rfl, rfl, rfl, rfl, rfl, rfl, rfl⟩ (.of_eq rfl rfl rfl rfl rfl) (.of_eq rfl rfl id rfl rfl)
    ⟨pushEntry_length _ _, fun m k => by simp [State.pushFault, State.flag_setNotice]; exact .inr k,
     by simp [State.pushFault, State.flag_setNotice, faultSource]; rfl⟩ rfl rfl

/-- An update of a region's context that leaves its staged descriptor and directory standing. -/
theorem Kept.updRegion {s : State} (r : RegionId) (f : Region → Region)
    (hs : (f (s.region r)).staged = (s.region r).staged)
    (hl : (f (s.region r)).live = (s.region r).live)
    (ha : (s.region r).age ≤ 65535 → (f (s.region r)).age ≤ 65535)
    (ht : (f (s.region r)).txn = (s.region r).txn ∨ (f (s.region r)).txn = .opened ∨ (f (s.region r)).txn = .committing) : Kept s (s.updRegion r f) :=
  .of_table ⟨rfl, rfl, rfl, rfl, rfl, rfl, rfl, rfl, rfl, rfl, rfl⟩ (.of_eq rfl rfl rfl rfl rfl)
    { staged := fun q => by rw [State.region_updRegion]; split <;> simp_all
      live := fun q => by rw [State.region_updRegion]; split <;> simp_all
      age := fun q h => by rw [State.region_updRegion]; split <;> simp_all
      directory := id
      windows := fun h => h.congr (fun q => by rw [State.region_updRegion]; split <;> simp_all)
        (fun q => by rw [State.region_updRegion]; split <;> simp_all) rfl rfl id
      law := fun h => ⟨fun d hd => by
        rw [State.region_updRegion]
        split
        · next k =>
          subst k
          rcases ht with k | k
          · rw [k]; exact h.running d hd
          · exact k
        · exact h.running d hd, h.startup⟩ } (.of_eq rfl rfl) rfl rfl

/-! ## Updates of the directory -/

theorem Kept.directory {s : State} (dir : List DirEntry) (h : dir.length ≤ s.directory.length)
    (hm : ∀ d ∈ dir, ∃ e ∈ s.directory, e.region = d.region) : Kept s { s with directory := dir } :=
  .of_table ⟨rfl, rfl, rfl, rfl, rfl, rfl, rfl, rfl, rfl, rfl, rfl⟩ (.of_eq rfl rfl rfl rfl rfl)
    { staged := fun _ => rfl
      live := fun _ => .inl rfl
      age := fun _ => id
      windows := fun k => k.congr (fun _ => rfl) (fun _ => rfl) rfl rfl id
      directory := fun k => h.trans k
      law := fun k =>
        ⟨fun d hd => by obtain ⟨e, he, hr⟩ := hm d hd; rw [← hr]; exact k.running e he,
         fun j => List.eq_nil_of_length_eq_zero (by have := k.startup j; simp_all)⟩ } (.of_eq rfl rfl) rfl rfl

theorem Kept.freeDirectory (s : State) (r : RegionId) : Kept s (s.freeDirectory r) :=
  .directory _ (List.length_filter_le _ _) fun d hd => ⟨d, List.mem_of_mem_filter hd, rfl⟩

theorem Kept.dropPending (s : State) (r : RegionId) (ls : List Nat) : Kept s (s.dropPending r ls) :=
  .directory _ (List.length_filter_le _ _) fun d hd => ⟨d, List.mem_of_mem_filter hd, rfl⟩

theorem Kept.makeDurable (s : State) (r : RegionId) (ls : List Nat) : Kept s (s.makeDurable r ls) :=
  .directory _ (by simp) fun d hd => by
    obtain ⟨e, he, rfl⟩ := List.mem_map.mp hd
    exact ⟨e, he, by split <;> rfl⟩

/-! ## Updates of the table -/

/-- An update of the entries one by one that keeps each entry's tag and line, and starts none. -/
theorem Kept.mapTable (s : State) (f : Entry → Entry) (ht : ∀ e, (f e).tag = e.tag) (ha : ∀ e, (f e).addr = e.addr)
    (hs : ∀ e, e.state = .waitOrder → (f e).state = .waitOrder) (hk : ∀ e, e.state ≠ .waitOrder → (f e).state ≠ .waitOrder) :
    Kept s { s with table := s.table.map f } where
  same := ⟨rfl, rfl, rfl, rfl, rfl, rfl, rfl, rfl, rfl, rfl, rfl⟩
  dev := .of_eq rfl rfl rfl rfl rfl
  reg := .of_eq rfl rfl id rfl rfl
  note := .of_eq rfl rfl
  sub := by simp [State.tags, Function.comp_def, ht]
  responses := ⟨[], by simp⟩
  begun g h := by
    intro e he k
    obtain ⟨x, hx, rfl⟩ := List.mem_map.mp he
    exact hk x (h x hx ((ht x).symm.trans k))
  account _ g := by simp [accounted, Function.comp_def, ht]
  line _ h := by
    simp only [LineLaw, List.pairwise_map, ha]
    exact List.Pairwise.imp (fun k j => hs _ (k j)) h

theorem Kept.moveEntries (s : State) (ts : List HostTag) (st : EntryState) (h : st ≠ .waitOrder) :
    Kept s (s.moveEntries ts st) :=
  .mapTable s _ (fun e => by split <;> rfl) (fun e => by split <;> rfl)
    (fun e k => by simp [k]) (fun e k => by split <;> assumption)

theorem Kept.releaseWrite (s : State) (t : HostTag) : Kept s (s.releaseWrite t) :=
  .mapTable s _ (fun e => by dsimp only; split_ifs <;> rfl) (fun e => by dsimp only; split_ifs <;> rfl)
    (fun e k => by simp [k]) (fun e k => by dsimp only; split_ifs <;> simp_all)

/-! ## Sequences of updates -/

/-- A fold of kept updates is kept. -/
theorem Kept.foldl {α : Type} (f : State → α → State) (h : ∀ s a, Kept s (f s a)) (l : List α) (s : State) :
    Kept s (l.foldl f s) := by
  induction l generalizing s with
  | nil => exact .refl s
  | cons a l ih => exact (h s a).trans (ih _)

/-- A fold of updates that are kept wherever a property holds that they all keep. -/
theorem Kept.foldl_of {α : Type} (P : State → Prop) (f : State → α → State) (h : ∀ s a, P s → Kept s (f s a))
    (hP : ∀ s a, P s → P (f s a)) (l : List α) (s : State) (hs : P s) : Kept s (l.foldl f s) := by
  induction l generalizing s with
  | nil => exact .refl s
  | cons a l ih => exact (h s a hs).trans (ih _ (hP s a hs))

/-- The last of two updates first. -/
theorem Kept.after {s t u : State} (b : Kept t u) (a : Kept s t) : Kept s u := a.trans b

theorem Kept.ite {s t u : State} {c : Prop} [Decidable c] (a : c → Kept s t) (b : ¬c → Kept s u) :
    Kept s (if c then t else u) := by
  split
  · exact a ‹_›
  · exact b ‹_›

theorem Kept.mapTags (s : State) (f : Tag → Tag) : Kept s (s.mapTags f) := by
  unfold State.mapTags
  exact Kept.foldl (fun s t => s.setTag t (f (s.tag t))) (fun s t => Kept.setTag s t (f (s.tag t))) allTags s

theorem Kept.withdraw (s : State) (o : Owner) : Kept s (s.withdraw o) := .updDport s _ rfl

theorem Kept.stopOwner (s : State) (o : Owner) : Kept s (s.stopOwner o) := by
  unfold State.stopOwner State.discardOutcomes
  exact (Kept.withdraw s o).trans (.mapTags _ _)

theorem Kept.handAnchor (s : State) (qs : List DownRequest) : Kept s (s.handAnchor qs) := .updDport s _ rfl

theorem Kept.handLog (s : State) (qs : List DownRequest) : Kept s (s.handLog qs) := .updDport s _ rfl

theorem Kept.handRoll (s : State) (qs : List DownRequest) : Kept s (s.handRoll qs) := .updDport s _ rfl

theorem Kept.drained (s : State) (t : HostTag) : Kept s (s.drained t) := by
  unfold State.drained
  exact .after (.updLog _ rfl rfl) (.after (.updEngine _ _) (.foldl _ (fun s r => .updRegion r _ rfl rfl id (.inl rfl)) _ s))

end Sys2Proof.Machine
end

