-- ==== Sys2Proof/Laws/KeptEntries.lean ====
section
/-! SUPPORT. What answering, starting and releasing host requests keeps, and with it the return to IDLE, the entry to
FAULTED and the other ends of a transaction. -/

namespace Sys2Proof.Machine

/-! ## Answering -/

/-- The response is given and the entry leaves the table. -/
def State.responded (s : State) (e : Entry) (reason : Reason) (data : List Word32) : State :=
  { s with
    responses := s.responses ++ [{ tag := e.tag, reason := reason, data := data }]
    table := s.table.filter fun x => x.tag ≠ e.tag }

theorem State.answer_eq (s : State) (e : Entry) (reason : Reason) (data : List Word32) :
    s.answer e reason data = (s.responded e reason data).drained e.tag := rfl

theorem State.tags_responded (s : State) (e : Entry) (reason : Reason) (data : List Word32) :
    (s.responded e reason data).tags = s.tags.filter fun g => g ≠ e.tag := by
  simp [State.tags, State.responded, List.filter_map, Function.comp_def]

theorem Base.responded (s : State) (e : Entry) (reason : Reason) (data : List Word32) :
    Base s (s.responded e reason data) where
  same := ⟨rfl, rfl, rfl, rfl, rfl, rfl, rfl, rfl, rfl, rfl, rfl⟩
  dev := .of_eq rfl rfl rfl rfl rfl
  reg := .of_eq rfl rfl id rfl rfl
  note := .of_eq rfl rfl
  sub := by rw [State.tags_responded]; exact List.filter_sublist
  responses := ⟨_, rfl⟩
  begun g h e' he := h e' (List.mem_of_mem_filter he)

theorem LineLaw.responded {s : State} (h : LineLaw s) (e : Entry) (reason : Reason) (data : List Word32) :
    LineLaw (s.responded e reason data) := List.Pairwise.sublist List.filter_sublist h

theorem accounted_responded (s : State) (e : Entry) (reason : Reason) (data : List Word32) (hn : s.tags.Nodup)
    (he : e.tag ∈ s.tags) (g : HostTag) : accounted (s.responded e reason data) g = accounted s g := by
  have hc := State.tags_responded s e reason data
  have h1 : s.tags.count e.tag = 1 := List.count_eq_one_of_mem hn he
  simp only [State.tags] at hc h1
  simp only [accounted, hc]
  by_cases hg : g = e.tag
  · subst hg
    have h0 : (List.filter (fun g => decide (g ≠ e.tag)) (List.map Entry.tag s.table)).count e.tag = 0 :=
      List.count_eq_zero.mpr (by simp)
    rw [h0, h1]
    simp [State.responded]
  · have h2 := List.count_filter (l := s.table.map Entry.tag) (p := fun x => decide (x ≠ e.tag)) (a := g) (by simpa using hg)
    rw [h2]
    simp [State.responded, Ne.symm hg]

/-- Answering an entry of the table. -/
theorem Kept.answer {s : State} {e : Entry} (reason : Reason) (data : List Word32) (he : s.tags.Nodup → e.tag ∈ s.tags) :
    Kept s (s.answer e reason data) :=
  let a : Kept s (s.responded e reason data) :=
    { Base.responded s e reason data with
      account := fun hn g => accounted_responded s e reason data hn (he hn) g
      line := fun _ h => h.responded e reason data }
  a.trans (.drained _ _)

theorem Base.answer (s : State) (e : Entry) (reason : Reason) (data : List Word32) : Base s (s.answer e reason data) :=
  (Base.responded s e reason data).trans (Kept.drained _ _).toBase

theorem State.tags_drained (s : State) (t : HostTag) : (s.drained t).tags = s.tags := by
  rw [State.drained_eq]
  rfl

theorem State.tags_answer (s : State) (e : Entry) (reason : Reason) (data : List Word32) :
    (s.answer e reason data).tags = s.tags.filter fun g => g ≠ e.tag := by
  rw [State.answer_eq, State.tags_drained, State.tags_responded]

/-! ## Folds over entries of the table -/

/-- A fold over distinct entries of the table is kept, when each update is `Base`-kept, leaves the other tags in the
table, and is kept where its own tag is in the table and satisfies `P`, which every update keeps. -/
theorem Kept.foldEntries (P : State → HostTag → Prop) (f : State → Entry → State) (hb : ∀ s e, Base s (f s e))
    (hP : ∀ s e g, P s g → P (f s e) g) (hm : ∀ s e g, g ≠ e.tag → g ∈ s.tags → g ∈ (f s e).tags)
    (hk : ∀ s e, s.tags.Nodup → e.tag ∈ s.tags → P s e.tag → Kept s (f s e)) (es : List Entry) (s : State)
    (hin : ∀ e ∈ es, e.tag ∈ s.tags) (hp : s.tags.Nodup → ∀ e ∈ es, P s e.tag)
    (hd : s.tags.Nodup → (es.map Entry.tag).Nodup) : Kept s (es.foldl f s) := by
  have base : ∀ (es : List Entry) (s : State), Base s (es.foldl f s) := by
    intro es
    induction es with
    | nil => exact fun s => (Kept.refl s).toBase
    | cons e es ih => exact fun s => (hb s e).trans (ih _)
  have full : ∀ (es : List Entry) (s : State), s.tags.Nodup → (∀ e ∈ es, e.tag ∈ s.tags) → (∀ e ∈ es, P s e.tag) →
      (es.map Entry.tag).Nodup → Kept s (es.foldl f s) := by
    intro es
    induction es with
    | nil => exact fun s _ _ _ _ => Kept.refl s
    | cons e es ih =>
      intro s hn hin hp hd
      obtain ⟨h1, h2⟩ := List.nodup_cons.mp hd
      have k := hk s e hn (hin e (by simp)) (hp e (by simp))
      refine k.trans (ih _ (k.sub.nodup hn) (fun x hx => hm s e _ ?_ (hin x (by simp [hx])))
        (fun x hx => hP s e _ (hp x (by simp [hx]))) h2)
      exact fun h => h1 (h ▸ List.mem_map_of_mem hx)
  exact
    { base es s with
      account := fun hn g => (full es s hn hin (hp hn) (hd hn)).account hn g
      line := fun hn h => (full es s hn hin (hp hn) (hd hn)).line hn h }

theorem Kept.answerErrors (s : State) (p : Entry → Bool) (reason : Entry → Reason) :
    Kept s (s.answerErrors (s.table.filter p) reason) := by
  unfold State.answerErrors
  refine .foldEntries (fun _ _ => True) _ (fun s e => Base.answer s e _ _) (fun _ _ _ _ => trivial) ?_
    (fun s e _ he _ => .answer _ _ fun _ => he) _ s ?_ (fun _ _ _ => trivial) ?_
  · intro s e g hg hin
    simp only [State.tags_answer]
    simp [hg, hin]
  · exact fun e he => List.mem_map_of_mem (List.mem_of_mem_filter he)
  · exact fun hn => hn.sublist (List.Sublist.map _ List.filter_sublist)

theorem Kept.answerEntriesOf (s : State) (tags : List HostTag) (reason : Entry → Reason) :
    Kept s (s.answerErrors (s.entriesOf tags) reason) := .answerErrors s _ reason

/-! ## Starting -/

theorem lookup_state (s : State) (r : RegionId) (addr : Nat) (miss : Handling) {st : EntryState} {h : Option Handling}
    (k : s.lookup r addr miss = .go st h) : st ≠ .waitOrder := by
  unfold State.lookup at k
  split at k <;> cases k <;> simp

theorem placeByRegion_state (s : State) (r : RegionId) (e : Entry) {st : EntryState} {h : Option Handling}
    (k : s.placeByRegion r e = .go st h) : st ≠ .waitOrder := by
  unfold State.placeByRegion at k
  split at k
  · cases k; simp
  · cases k; simp
  · cases k; simp
  · split at k <;> cases k; simp
  · exact lookup_state s r _ _ k
  · split at k
    · exact lookup_state s r _ _ k
    · cases k; simp
  · cases k; simp
  · cases k

/-- No request is placed in WAIT_ORDER on its start (R156). -/
theorem placing_state (s : State) (e : Entry) (c : RequestClass) {st : EntryState} {h : Option Handling}
    (k : s.placing e c = .go st h) : st ≠ .waitOrder := by
  unfold State.placing at k
  split at k
  · cases k
  · cases k; simp
  · split at k
    · cases k
    · exact placeByRegion_state s _ e k

/-- The entry with a tag takes a class, state and handling. -/
def State.placed (s : State) (t : HostTag) (c : RequestClass) (st : EntryState) (h : Option Handling) : State :=
  s.updEntry t fun x => { x with cls := some c, state := st, handling := h }

/-- What an entry's start does: a response, or a placing that is not WAIT_ORDER. -/
theorem startEntry_cases (s : State) (e : Entry) :
    (∃ reason, s.startEntry e = s.answerError e reason) ∨
      ∃ st h, st ≠ .waitOrder ∧ s.startEntry e = s.placed e.tag (s.classify e.addr) st h := by
  unfold State.startEntry
  dsimp only
  cases k : s.placing e (s.classify e.addr) with
  | go st h => exact .inr ⟨st, h, placing_state s e _ k, rfl⟩
  | refuse reason => exact .inl ⟨reason, rfl⟩

theorem State.tags_placed (s : State) (t : HostTag) (c : RequestClass) (st : EntryState) (h : Option Handling) :
    (s.placed t c st h).tags = s.tags := by
  simp only [State.tags, State.placed, State.updEntry, List.map_map]
  refine List.map_congr_left fun e _ => ?_
  simp only [Function.comp]
  split <;> rfl

theorem Base.placed (s : State) (t : HostTag) (c : RequestClass) {st : EntryState} (h : Option Handling)
    (hst : st ≠ .waitOrder) : Base s (s.placed t c st h) where
  same := ⟨rfl, rfl, rfl, rfl, rfl, rfl, rfl, rfl, rfl, rfl, rfl⟩
  dev := .of_eq rfl rfl rfl rfl rfl
  reg := .of_eq rfl rfl id rfl rfl
  note := .of_eq rfl rfl
  sub := by rw [State.tags_placed]
  responses := ⟨[], by simp [State.placed]⟩
  begun g k e he := by
    obtain ⟨x, hx, rfl⟩ := List.mem_map.mp he
    dsimp only
    split
    · exact fun _ => hst
    · exact k x hx

/-- A placing keeps same-line order when the entry has started, or no older entry for its line is in the table. -/
theorem LineLaw.placed {s : State} (hl : LineLaw s) (t : HostTag) (c : RequestClass) (st : EntryState)
    (h : Option Handling) (hb : Begun s t) : LineLaw (s.placed t c st h) := by
  simp only [LineLaw, State.placed, State.updEntry, List.pairwise_map]
  refine List.Pairwise.imp_of_mem (fun {a b} ha hb' k => ?_) hl
  split_ifs with h1 h2 h2
  · exact fun j => absurd (k j) (hb b hb' h2)
  · exact k
  · exact fun j => absurd (k j) (hb b hb' h2)
  · exact k

theorem accounted_placed (s : State) (t : HostTag) (c : RequestClass) (st : EntryState) (h : Option Handling)
    (g : HostTag) : accounted (s.placed t c st h) g = accounted s g := by
  have := State.tags_placed s t c st h
  simp only [State.tags] at this
  simp only [accounted, this]
  rfl

theorem Base.startEntry (s : State) (e : Entry) : Base s (s.startEntry e) := by
  obtain ⟨reason, h⟩ | ⟨st, h, hst, k⟩ := startEntry_cases s e
  · rw [h]; exact .answer s e _ _
  · rw [k]; exact .placed s e.tag _ h hst

/-- Starting an entry of the table that has begun. -/
theorem Kept.startEntry {s : State} {e : Entry} (he : e.tag ∈ s.tags) (hb : Begun s e.tag) : Kept s (s.startEntry e) := by
  obtain ⟨reason, h⟩ | ⟨st, h, hst, k⟩ := startEntry_cases s e
  · rw [h]; exact .answer _ _ fun _ => he
  · rw [k]
    exact
      { Base.placed s e.tag _ h hst with
        account := fun _ => accounted_placed s _ _ _ _
        line := fun _ hl => hl.placed _ _ _ _ hb }

/-- An entry of the table whose tags are distinct is the only one with its tag. -/
theorem eq_of_tag {s : State} (hn : s.tags.Nodup) {a b : Entry} (ha : a ∈ s.table) (hb : b ∈ s.table)
    (h : a.tag = b.tag) : a = b := List.inj_on_of_nodup_map hn ha hb h

theorem Kept.releaseHeld (s : State) (r : RegionId) : Kept s (s.releaseHeld r) := by
  unfold State.releaseHeld State.heldEntries
  refine .foldEntries Begun _ Base.startEntry (fun s e g h => (Base.startEntry s e).begun g h) ?_
    (fun s e _ he hb => .startEntry he hb) _ s ?_ ?_ ?_
  · intro s e g hg hin
    obtain ⟨reason, h⟩ | ⟨st, h, hst, k⟩ := startEntry_cases s e
    · rw [h, State.answerError, State.tags_answer]; simp [hg, hin]
    · rw [k, State.tags_placed]; exact hin
  · exact fun e he => List.mem_map_of_mem (List.mem_of_mem_filter he)
  · intro hn e he x hx hxe
    have h := eq_of_tag hn hx (List.mem_of_mem_filter he) hxe
    subst h
    have := (List.mem_filter.mp he).2
    intro k
    simp [k] at this
  · exact fun hn => hn.sublist (List.Sublist.map _ List.filter_sublist)

/-! ## Ends of a transaction -/

/-- A region leaves OPEN or COMMITTING, with its directory entries freed. -/
theorem Kept.leave (s : State) (r : RegionId) (f : Region → Region) (hs : (f (s.region r)).staged = (s.region r).staged)
    (hl : (f (s.region r)).live = (s.region r).live) (ha : (f (s.region r)).age = (s.region r).age) :
    Kept s ((s.updRegion r f).freeDirectory r) :=
  .of_table ⟨rfl, rfl, rfl, rfl, rfl, rfl, rfl, rfl, rfl, rfl, rfl⟩ (.of_eq rfl rfl rfl rfl rfl)
    { staged := fun q => by
        show ((s.updRegion r f).region q).staged = _
        rw [State.region_updRegion]; split <;> simp_all
      live := fun q => by
        show ((s.updRegion r f).region q).live = _ ∨ ((s.updRegion r f).region q).live = _
        rw [State.region_updRegion]; split <;> simp_all
      age := fun q h => by
        show ((s.updRegion r f).region q).age ≤ _
        rw [State.region_updRegion]; split <;> simp_all
      directory := fun h => (List.length_filter_le _ _).trans h
      windows := fun h => h.congr
        (fun q => by
          show ((s.updRegion r f).region q).live = _
          rw [State.region_updRegion]; split <;> simp_all)
        (fun q => by
          show ((s.updRegion r f).region q).staged = _
          rw [State.region_updRegion]; split <;> simp_all) rfl rfl id
      law := fun h =>
        ⟨fun d hd => by
          have hd' := List.mem_filter.mp hd
          show ((s.updRegion r f).region d.region).txn = _ ∨ ((s.updRegion r f).region d.region).txn = _
          rw [State.region_updRegion, if_neg (by simpa using (Ne.symm (by simpa using hd'.2 : d.region ≠ r)))]
          exact h.running d hd'.1,
         fun k => by
          have := h.startup k
          show List.filter _ s.directory = []
          simp [this]⟩ } (.of_eq rfl rfl) rfl rfl

theorem Kept.setApply (s : State) (r : RegionId) (p : PendingApply) : Kept s (s.setApply r p) := .updRegion r _ rfl rfl id (.inl rfl)

/-- Two spans share a byte at no address when they do not meet. -/
theorem holds_apart {a la b lb x : Nat} (h : spansMeet a la b lb = false) (ha : a ≤ x ∧ x < a + la)
    (hb : b ≤ x ∧ x < b + lb) : False := by
  simp only [spansMeet, Bool.and_eq_false_iff, decide_eq_false_iff_not] at h
  omega

/-- A staged descriptor that passes the checks of R5 becomes live. -/
theorem WindowLaw.applyStaged {s : State} (h : WindowLaw s) (r : RegionId) (hp : s.stagedPasses r = true) :
    WindowLaw (s.applyStaged r) := by
  have hr : ∀ q, ((s.applyStaged r).region q).live = if r = q then (s.region r).staged else (s.region q).live := by
    intro q; unfold State.applyStaged; rw [State.region_updRegion]; split <;> rfl
  have hs : ∀ q, ((s.applyStaged r).region q).staged = (s.region q).staged := by
    intro q; unfold State.applyStaged; rw [State.region_updRegion]; split <;> simp_all
  have pass : (s.region r).staged.enable = true →
      (s.region r).staged.base + 32 * (s.region r).staged.size ≤ s.memorySize - 64 ∧
      (∀ g, s.log.geometry = some g → spansMeet (s.region r).staged.base (32 * (s.region r).staged.size) g.base g.size = false) ∧
      ∀ q, q ≠ r → (s.region q).live.enable = true →
        spansMeet (s.region r).staged.base (32 * (s.region r).staged.size) (s.region q).live.base
          (32 * (s.region q).live.size) = false := by
    intro he
    simp only [State.stagedPasses, he, Bool.not_true, Bool.false_or, Bool.and_eq_true, decide_eq_true_eq,
      List.all_eq_true, Bool.or_eq_true, beq_iff_eq] at hp
    refine ⟨hp.1.1, fun g hg => ?_, fun q hq hl => ?_⟩
    · have := hp.1.2; rw [hg] at this; simpa using this
    · have := hp.2 q (mem_allRegions q)
      rw [hl] at this
      simpa [hq] using this
  have cut : ∀ (d : Descriptor) (x : Nat), d.holds x = true → d.base ≤ x ∧ x < d.base + 32 * d.size := by
    intro d x k; simpa [Descriptor.holds] using k
  have cutG : ∀ (g : Geometry) (x : Nat), g.holds x = true → g.base ≤ x ∧ x < g.base + g.size := by
    intro g x k; simpa [Geometry.holds] using k
  refine ⟨h.ring, fun q => ?_, fun q g => ?_, fun q p => ?_, fun k q => ?_⟩
  · rw [hr]; split
    · exact fun k => (pass k).1
    · exact h.below q
  · rw [hr]; split
    · exact fun k hg x hx => holds_apart ((pass k).2.1 g hg) (cut _ _ hx.1) (cutG _ _ hx.2)
    · exact h.area q g
  · rw [hr, hr]; split <;> split
    · next a b => exact fun k => absurd (a.symm.trans b) k
    · next b => exact fun _ k j x hx => holds_apart ((pass k).2.2 p (Ne.symm b) j) (cut _ _ hx.1) (cut _ _ hx.2)
    · next b _ => exact fun _ k j x hx => holds_apart ((pass j).2.2 q (Ne.symm b) k) (cut _ _ hx.2) (cut _ _ hx.1)
    · exact h.apart q p
  · rw [hr, hs]; split
    · next a => subst a; exact ⟨(h.startup k r).2, (h.startup k r).2⟩
    · exact h.startup k q

theorem Kept.applyStaged (s : State) (r : RegionId) (hp : s.stagedPasses r = true) : Kept s (s.applyStaged r) :=
  .of_table ⟨rfl, rfl, rfl, rfl, rfl, rfl, rfl, rfl, rfl, rfl, rfl⟩ (.of_eq rfl rfl rfl rfl rfl)
    { staged := fun q => by unfold State.applyStaged; rw [State.region_updRegion]; split <;> simp_all
      live := fun q => by unfold State.applyStaged; rw [State.region_updRegion]; split <;> simp_all
      age := fun q h => by unfold State.applyStaged; rw [State.region_updRegion]; split <;> simp_all
      directory := id
      windows := fun h => h.applyStaged r hp
      law := fun h => ⟨fun d hd => by
        unfold State.applyStaged
        rw [State.region_updRegion]
        split
        · next k => subst k; exact h.running d hd
        · exact h.running d hd, h.startup⟩ } (.of_eq rfl rfl) rfl rfl

theorem Kept.applyAtReturn (s : State) (r : RegionId) : Kept s (s.applyAtReturn r) := by
  unfold State.applyAtReturn
  split_ifs with _ h
  · exact .applyStaged s r h
  · exact (Kept.setApply s r _).trans (.pushFault _ _)
  · exact .refl s

theorem Kept.returnToIdle (s : State) (r : RegionId) (n : Word32 → Word32) : Kept s (s.returnToIdle r n) := by
  unfold State.returnToIdle
  exact .after (.releaseHeld _ r) (.after (.applyAtReturn _ r) (.after (.updRegion r _ rfl rfl id (.inl rfl)) (.leave s r _ rfl rfl rfl)))

theorem Kept.enterFaulted (s : State) (r : RegionId) : Kept s (s.enterFaulted r) := by
  unfold State.enterFaulted
  exact .after (.answerErrors _ _ _) (.leave s r _ rfl rfl rfl)

end Sys2Proof.Machine
end

