-- ==== Sys2Proof/Laws/KeptLog.lean ====
section
/-! SUPPORT. What the operations of the Log Manager, the Log Writer and the ends of a transaction keep. -/

namespace Sys2Proof.Machine

/-! ## The Log Manager -/

theorem Kept.noteFree (s : State) (old : Nat) : Kept s (s.noteFree old) := by
  unfold State.noteFree
  split_ifs
  · exact .refl s
  · exact .refl s
  · exact .after (.setNotice _ _ (by decide)) (.updLog _ rfl rfl)
  · exact .updLog _ rfl rfl

theorem Kept.setLevel (s : State) : Kept s s.setLevel := .updLog _ rfl rfl

theorem Kept.placeAtHead (s : State) (n : Nat) : Kept s (s.placeAtHead n) := by
  unfold State.placeAtHead
  exact .after (.noteFree _ _) (.updLog _ rfl rfl)

theorem Kept.startAnchor (s : State) (p : AnchorPurpose) : Kept s (s.startAnchor p) := by
  unfold State.startAnchor
  split
  · exact .refl s
  · exact .after (.handAnchor _ _) (.updLog _ rfl rfl)

theorem Kept.strideTrigger (s : State) : Kept s s.strideTrigger := by
  unfold State.strideTrigger
  split_ifs
  · exact .updLog _ rfl rfl
  · exact .startAnchor s _
  · exact .refl s

theorem Kept.spaceEvent (s : State) : Kept s s.spaceEvent := by
  unfold State.spaceEvent
  exact .foldl _ (fun s r => .updWriter s _) _ s

theorem Kept.recomputeTail (s : State) : Kept s s.recomputeTail := by
  unfold State.recomputeTail
  exact .updLog _ rfl rfl

theorem Kept.resolve (s : State) (r : RegionId) : Kept s (s.resolve r) := by
  unfold State.resolve
  refine .after (t := (s.updLog fun l =>
    { l with unresolved := l.unresolved - 1, firstSeqs := l.firstSeqs.set r.val none }).recomputeTail)
    (.ite (fun _ => .refl _) fun _ => ?_) (.after (.recomputeTail _) (.updLog _ rfl rfl))
  exact .after (.strideTrigger _) (.spaceEvent _)

theorem Kept.admitRecord (s : State) (r : RegionId) (first : Bool) (lines : Nat) :
    Kept s (s.admitRecord r first lines) := by
  unfold State.admitRecord
  refine .ite (fun _ => ?_) fun _ => .placeAtHead _ _
  exact .after (.updLog _ rfl rfl) (.placeAtHead _ _)

/-! ## Ends of a transaction -/

theorem Kept.dropWaitingGroups (s : State) (r : RegionId) : Kept s (s.dropWaitingGroups r) := by
  unfold State.dropWaitingGroups
  refine .after (t := s.updWriter _) (.ite (fun _ => ?_) fun _ => .refl _) (.updWriter _ _)
  exact .after (.updLog _ rfl rfl) (.updWriter _ _)

theorem Kept.freeAndQueue (s : State) (r : RegionId) : Kept s ((s.freeDirectory r).queueWalk r) := by
  unfold State.queueWalk
  exact .after (.updEngine _ _) (.leave s r
    (fun x => { x with txn := .rollingBack, sub := .queued, drain := [], recordPhase := false, expiryDue := false })
    rfl rfl rfl)

/-- A FAULTED region joins the rollback queue; it holds no directory entry. -/
theorem Kept.queueFaulted (s : State) (r : RegionId) (h : (s.region r).txn = .faulted) : Kept s (s.queueWalk r) := by
  unfold State.queueWalk
  refine .after (.updEngine _ _) (.of_table ⟨rfl, rfl, rfl, rfl, rfl, rfl, rfl, rfl, rfl, rfl, rfl⟩
    (.of_eq rfl rfl rfl rfl rfl) ?_ (.of_eq rfl rfl) rfl rfl)
  exact
    { staged := fun q => by rw [State.region_updRegion]; split <;> simp_all
      live := fun q => by rw [State.region_updRegion]; split <;> simp_all
      age := fun q _ => by rw [State.region_updRegion]; split <;> simp_all
      directory := id
      windows := fun k => k.congr (fun q => by rw [State.region_updRegion]; split <;> simp_all)
        (fun q => by rw [State.region_updRegion]; split <;> simp_all) rfl rfl id
      law := fun k => ⟨fun d hd => by
        rw [State.region_updRegion]
        split
        · next j => exact absurd (k.running d hd) (by rw [← j, h]; simp)
        · exact k.running d hd, k.startup⟩ }

theorem Kept.setRegionNotice {s t : State} (h : Kept s t) (n : Source) (hn : n ≠ 0) : Kept s (t.setNotice n) :=
  h.trans (.setNotice t n hn)

theorem commitDone_ne_zero (r : RegionId) : commitDone r ≠ 0 := 
  fun h => absurd (congrArg Fin.val h) (by simp [commitDone])
theorem rollbackDone_ne_zero (r : RegionId) : rollbackDone r ≠ 0 := 
  fun h => absurd (congrArg Fin.val h) (by simp [rollbackDone])
theorem ageExpired_ne_zero (r : RegionId) : ageExpired r ≠ 0 := 
  fun h => absurd (congrArg Fin.val h) (by simp [ageExpired])

theorem Kept.abortTxn (s : State) (r : RegionId) : Kept s (s.abortTxn r) := by
  unfold State.abortTxn
  refine .after (t := (s.moveEntries (s.abortMoves r) .waitRegion).dropWaitingGroups r)
    (.ite (fun _ => ?_) fun _ => .freeAndQueue _ _) (.after (.dropWaitingGroups _ _) (.moveEntries _ _ _ (by simp)))
  exact .setRegionNotice (.returnToIdle _ _ _) _ (rollbackDone_ne_zero r)

theorem Kept.completeCommit (s : State) (r : RegionId) : Kept s (s.completeCommit r) := by
  unfold State.completeCommit
  refine .setRegionNotice ?_ _ (commitDone_ne_zero r)
  exact .after (.returnToIdle _ _ _) (.ite (fun _ => .refl s) fun _ => .resolve s r)

theorem Kept.endWalk (s : State) : Kept s s.endWalk := by
  unfold State.endWalk
  exact .after (.updEngine _ _) (.stopOwner _ _)

theorem Kept.completeWalk (s : State) (r : RegionId) : Kept s (s.completeWalk r) := by
  unfold State.completeWalk
  exact .after (.endWalk _) (.setRegionNotice (.after (.returnToIdle _ _ _) (.resolve _ _)) _ (rollbackDone_ne_zero r))

theorem Kept.failWalk (s : State) (r : RegionId) (e : FaultEntry) : Kept s (s.failWalk r e) := by
  unfold State.failWalk
  exact .after (.endWalk _) (.after (.enterFaulted _ _) (.pushFault _ _))

theorem Kept.stopWriter (s : State) : Kept s s.stopWriter := by
  unfold State.stopWriter
  exact .after (.updWriter _ _) (.stopOwner _ _)

theorem Kept.logFaultRegion (s : State) (r : RegionId) : Kept s (s.logFaultRegion r) := by
  unfold State.logFaultRegion
  split
  · exact .refl s
  · exact .refl s
  · exact .ite (fun _ => .returnToIdle _ _ _) fun _ => .enterFaulted _ _
  · exact .ite (fun _ => .setRegionNotice (.returnToIdle _ _ _) _ (commitDone_ne_zero r)) fun _ => .enterFaulted _ _
  · exact .enterFaulted _ _

theorem Kept.endStartup (s : State) : Kept s s.endStartup := .setNotice s _ (by decide)

/-- The steps of the entry to LOG_FAULT after the device state changes (R108, steps 2 to 5). -/
theorem Kept.stopForLogFault (s : State) (h : s.device = .run ∨ s.device = .restoring) : Kept s s.stopForLogFault := by
  unfold State.stopForLogFault
  refine .after (.foldl _ Kept.logFaultRegion _ _) ?_
  refine .after (.updEngine _ _) (.after (.endWalk _) ?_)
  refine .after (.answerErrors _ _ _) ?_
  refine .after (.stopWriter _) (.after (.updLog _ rfl rfl) ?_)
  exact .setDevice _ (by rcases h with h | h <;> simp [h]) (by rcases h with h | h <;> simp [h]) (by simp) (by simp)
    (by simp) (by simp)

theorem Kept.logSideFailure (s : State) : Kept s s.logSideFailure := by
  unfold State.logSideFailure
  split
  · next h => exact .stopForLogFault s (.inl h)
  · next h => exact .after (.endStartup _) (.stopForLogFault s (.inr h))
  · next h => exact .setDevice _ (by simp [h]) (by simp [h]) (by simp) (by simp) (by simp) (by simp)
  · exact .refl s

/-! ## The Log Writer -/

/-- No more lines of a group receive a directory entry than entries are free (R61). -/
theorem groupLines_tracked (free : Nat) (es : List Entry) :
    ((groupLines free es).filter GroupLine.inDirectory).length ≤ free := by
  induction es generalizing free with
  | nil => simp [groupLines]
  | cons e es ih =>
    cases free with
    | zero => simpa [groupLines] using ih 0
    | succ n => simpa [groupLines] using ih n

/-- Inserting a group that fits, of a region that is OPEN or COMMITTING while the device is in RUN. -/
theorem Kept.insertGroup (s : State) (g : Group) (hd : s.device = .run)
    (hr : (s.region g.region).txn = .opened ∨ (s.region g.region).txn = .committing)
    (hg : s.directory.length ≤ 256 → s.directory.length + g.tracked.length ≤ 256) : Kept s (s.insertGroup g) := by
  have k : Kept s { s with directory := s.directory ++ g.tracked.map fun a => { region := g.region, line := a, durable := false } } :=
    .of_table ⟨rfl, rfl, rfl, rfl, rfl, rfl, rfl, rfl, rfl, rfl, rfl⟩ (.of_eq rfl rfl rfl rfl rfl)
      { staged := fun _ => rfl
        live := fun _ => .inl rfl
        age := fun _ => id
        windows := fun k => k.congr (fun _ => rfl) (fun _ => rfl) rfl rfl id
        directory := fun h => by simpa using hg h
        law := fun h => ⟨fun d hm => by
          rcases List.mem_append.mp hm with hm | hm
          · exact h.running d hm
          · obtain ⟨a, -, rfl⟩ := List.mem_map.mp hm
            exact hr, fun j => by simp [hd] at j⟩ } (.of_eq rfl rfl) rfl rfl
  unfold State.insertGroup
  exact .after (.ite (fun _ => .refl _) fun _ => .updRegion _ _ rfl rfl id (.inl rfl)) k

theorem Kept.startRecord (s : State) (b : Build) : Kept s (s.startRecord b) := by
  unfold State.startRecord
  exact .after (.handLog _ _) (.updWriter _ _)

theorem Kept.startWriting (s : State) (b : Build) : Kept s (s.startWriting b) := by
  unfold State.startWriting
  split
  · exact .after (.handLog _ _) (.updWriter _ _)
  · exact .startRecord s b

theorem Kept.startBuild (s : State) (b : Build) : Kept s (s.startBuild b) := by
  unfold State.startBuild
  exact .after (.handLog _ _) (.updWriter _ _)

theorem Kept.grant (s : State) (g : Group) : Kept s (s.grant g) := by
  unfold State.grant
  extract_lets x first p firstIndex record b s₁ s₂ s₃ s₄ s₅
  refine .after (t := s₅) (.ite (fun _ => .startBuild _ _) fun _ => .updWriter _ _) ?_
  exact .after (.moveEntries _ _ _ (by simp)) (.after (.updLog _ rfl rfl) (.after (.updWriter _ _)
    (.after (.updRegion _ _ rfl rfl id (.inl rfl)) (.admitRecord _ _ _ _))))

theorem Kept.discardGroup (s : State) (g : Group) : Kept s (s.discardGroup g) := by
  unfold State.discardGroup
  exact .after (.updLog _ rfl rfl) (.updWriter _ _)

theorem Kept.refuseWait (s : State) (g : Group) : Kept s (s.refuseWait g) := by
  unfold State.refuseWait
  exact .after (.moveEntries _ _ _ (by simp)) (.after (.updWriter _ _) (.discardGroup _ _))

theorem Kept.refuseFail (s : State) (g : Group) : Kept s (s.refuseFail g) := by
  unfold State.refuseFail
  exact .after (.discardGroup _ _) (.after (.dropPending _ _ _) (.answerEntriesOf _ _ _))

theorem Kept.refuseAbort (s : State) (g : Group) : Kept s (s.refuseAbort g) := by
  unfold State.refuseAbort
  exact .after (.abortTxn _ _) (.after (.discardGroup _ _) (.answerEntriesOf _ _ _))

theorem Kept.refuse (s : State) (g : Group) : Kept s (s.refuse g) := by
  unfold State.refuse
  refine .ite (fun _ => ?_) fun _ => .refuseFail _ _
  split
  · exact .ite (fun _ => .refuseFail _ _) fun _ => .refuseWait _ _
  · exact .refuseFail _ _
  · exact .refuseAbort _ _

theorem Kept.defer (s : State) (g : Group) : Kept s (s.defer g) := by
  unfold State.defer
  exact .after (.moveEntries _ _ _ (by simp)) (.after (.updLog _ rfl rfl) (.updWriter _ _))

theorem Kept.askAdmission (s : State) (g : Group) : Kept s (s.askAdmission g) := by
  unfold State.askAdmission
  refine .ite (fun _ => .grant _ _) fun _ => .ite (fun _ => .defer _ _) fun _ => .ite (fun _ => ?_) fun _ => .refuse _ _
  exact .after (.defer _ _) (.startAnchor _ _)

theorem Kept.reevaluate (s : State) : Kept s s.reevaluate := by
  unfold State.reevaluate
  split
  · exact .askAdmission _ _
  · exact .refl s

theorem Kept.serve (s : State) (r : RegionId) (h : s.eligible r = true) : Kept s (s.serve r) := by
  have hd : s.device = .run ∧ ((s.region r).txn = .opened ∨ (s.region r).txn = .committing) := by
    simp only [State.eligible, Bool.and_eq_true, Bool.or_eq_true, beq_iff_eq] at h
    exact h.1
  unfold State.serve
  dsimp only
  split
  · exact .after (.askAdmission _ _) (.after (.updWriter _ _) (.updWriter _ _))
  · refine .after (.askAdmission _ _) (.after (.insertGroup _ _ hd.1 hd.2 fun k => ?_) (.updWriter _ _))
    have := groupLines_tracked (256 - s.directory.length)
      ((State.untaken (s.updWriter fun w => { w with lastServed := r }) r).take Config.groupSize)
    simp only [Group.tracked, State.newGroup, List.length_map, Config.directorySize, State.updWriter_directory] at *
    omega

theorem Kept.takeClosing (s : State) (c : ClosingRequest) : Kept s (s.takeClosing c) := by
  unfold State.takeClosing
  exact .after (.startWriting _ _) (.after (.placeAtHead _ _) (.updWriter _ _))

theorem Kept.chooseWork (s : State) : Kept s s.chooseWork := by
  unfold State.chooseWork
  split
  · exact .startBuild _ _
  · split
    · exact .takeClosing _ _
    · refine .ite (fun _ => .refl s) fun _ => ?_
      split
      · next r h => exact .serve s r (List.find?_some h)
      · exact .refl s

theorem Kept.recordDurable (s : State) (b : Build) : Kept s (s.recordDurable b) := by
  unfold State.recordDurable
  dsimp only
  split
  · exact .after (.foldl _ Kept.releaseWrite _ _) (.after (.makeDurable _ _ _) (.updWriter _ _))
  · split
    · exact .after (.completeCommit _ _) (.updWriter _ _)
    · exact .after (.completeWalk _ _) (.updWriter _ _)
    · exact .updWriter _ _

theorem Kept.builderExhausted (s : State) (b : Build) (addr : Option Nat) (seq : Word32) (n : Nat) :
    Kept s (s.builderExhausted b addr seq n) := by
  unfold State.builderExhausted
  exact .after (.logSideFailure _) (.pushFault _ _)

theorem Kept.unitOutcome (s : State) (b : Build) (u : VerifiedUnit) (stage : VerifiedUnit → BuildStage) (seq : Word32)
    (done : State → State) (hd : Kept s (done s)) (addr : Nat) (outcome : Option Line) :
    Kept s (s.unitOutcome b u stage seq done addr outcome) := by
  unfold State.unitOutcome
  dsimp only
  split
  · exact .updWriter _ _
  · exact .after (.handLog _ _) (.updWriter _ _)
  · exact .after (.handLog _ _) (.updWriter _ _)
  · exact .builderExhausted _ _ _ _ _
  · exact hd

theorem Kept.oldLineOutcome (s : State) (b : Build) (g : Group) (addr : Nat) (outcome : Option Line) :
    Kept s (s.oldLineOutcome b g addr outcome) := by
  unfold State.oldLineOutcome
  split
  · exact .refl s
  · split
    · exact .ite (fun _ => .startWriting _ _) fun _ => .updWriter _ _
    · refine .ite (fun _ => ?_) fun _ => .builderExhausted _ _ _ _ _
      exact .after (.handLog _ _) (.updWriter _ _)

theorem Kept.writerOutcome (s : State) (addr : Nat) (outcome : Option Line) : Kept s (s.writerOutcome addr outcome) := by
  unfold State.writerOutcome
  split
  · exact .refl s
  · split
    · split
      · exact .oldLineOutcome _ _ _ _ _
      · exact .refl s
    · exact .unitOutcome _ _ _ _ _ _ (.startRecord _ _) _ _
    · exact .unitOutcome _ _ _ _ _ _ (.recordDurable _ _) _ _
    · exact .refl s

end Sys2Proof.Machine
end

