-- ==== Sys2Proof/Laws/KeptBlocks.lean ====
section
/-! SUPPORT. What anchor writes, walks, start-up and quiesce keep. -/

namespace Sys2Proof.Machine

/-! ## Anchors -/

theorem Kept.halt (s : State) : Kept s s.halt :=
  .of_table ⟨rfl, rfl, rfl, rfl, rfl, rfl, rfl, rfl, rfl, rfl, rfl⟩
    ⟨fun _ => rfl, fun _ => .inr rfl, fun h => (by cases h), fun h => (by cases h),
     fun _ => ⟨fun h => (by cases h), fun _ => rfl, fun _ h => absurd rfl h, fun _ => rfl, fun _ _ => rfl⟩,
     fun _ => ⟨rfl, rfl⟩⟩
    (.of_eq rfl rfl (fun h => by rcases h with h | h <;> cases h) rfl rfl) (.of_eq rfl rfl) rfl rfl

theorem Kept.adoptAnchor (s : State) (a : AnchorWrite) : Kept s (s.adoptAnchor a) := by
  unfold State.adoptAnchor
  exact .updLog _ rfl rfl

theorem Kept.afterAnchor (s : State) : Kept s s.afterAnchor := by
  unfold State.afterAnchor
  split_ifs
  · exact .after (.startAnchor _ _) (.updLog _ rfl rfl)
  · exact .after (.strideTrigger _) (.updLog _ rfl rfl)
  · exact .refl s

theorem Kept.anchorSequel (s : State) (p : AnchorPurpose) : Kept s (s.anchorSequel p) := by
  unfold State.anchorSequel
  split
  · exact .refl s
  · refine .ite (fun h => .after (.endStartup _) ?_) fun _ => .refl s
    exact .setDevice _ (by simp [h]) (by simp [h]) (by simp) (by simp) (by simp) (by simp)
  · exact .ite (fun _ => .startAnchor _ _) fun _ => .refl s
  · refine .ite (fun h => ?_) fun _ => .refl s
    exact .setDevice _ (by simp [h]) (by simp [h]) (by simp) (by simp) (by simp) (by simp)
  · exact .ite (fun _ => .halt s) fun _ => .refl s

theorem Kept.anchorVerified (s : State) (a : AnchorWrite) : Kept s (s.anchorVerified a) := by
  unfold State.anchorVerified
  exact .after (.anchorSequel _ _) (.after (.afterAnchor _) (.after (.reevaluate _) (.after (.spaceEvent _)
    (.after (.noteFree _ _) (.adoptAnchor _ _)))))

theorem Kept.anchorExhausted (s : State) (a : AnchorWrite) (n : Nat) : Kept s (s.anchorExhausted a n) := by
  unfold State.anchorExhausted
  extract_lets t
  refine .after (t := t) (.ite (fun _ => .ite (fun _ => .halt _) fun _ => .refl _) fun _ => .logSideFailure _) ?_
  exact .after (.pushFault _ _) (.updLog _ rfl rfl)

theorem Kept.anchorOutcome (s : State) (addr : Nat) (outcome : Option Line) : Kept s (s.anchorOutcome addr outcome) := by
  unfold State.anchorOutcome
  split
  · exact .refl s
  · dsimp only
    split
    · exact .updLog _ rfl rfl
    · exact .after (.handAnchor _ _) (.updLog _ rfl rfl)
    · exact .after (.handAnchor _ _) (.updLog _ rfl rfl)
    · exact .anchorExhausted _ _ _
    · exact .anchorVerified _ _

/-! ## The Rollback Engine -/

theorem Kept.setSub (s : State) (r : RegionId) (x : SubState) : Kept s (s.setSub r x) := .updRegion r _ rfl rfl id (.inl rfl)

theorem Kept.readRecord (s : State) : Kept s s.readRecord := by
  unfold State.readRecord
  split
  · exact .refl s
  · exact .after (.handRoll _ _) (.updEngine _ _)

theorem Kept.startWalking (s : State) (r : RegionId) : Kept s (s.startWalking r) := by
  unfold State.startWalking
  exact .after (.readRecord _) (.setSub _ _ _)

theorem Kept.startWalk (s : State) (r : RegionId) : Kept s (s.startWalk r) := by
  unfold State.startWalk
  extract_lets drain t
  refine .after (t := t) (.ite (fun _ => .startWalking _ _) fun _ => .refl _) ?_
  exact .after (.setSub _ _ _) (.updEngine _ _)

theorem Kept.failCheck (s : State) (r : RegionId) (x : Nat) (h : Header) : Kept s (s.failCheck r x h) := by
  unfold State.failCheck
  exact .failWalk _ _ _

theorem Kept.startRestore (s : State) (h : Header) (i : Nat) : Kept s (s.startRestore h i) := by
  unfold State.startRestore
  exact .after (.handRoll _ _) (.updEngine _ _)

theorem Kept.closeWalk (s : State) (r : RegionId) : Kept s (s.closeWalk r) := by
  unfold State.closeWalk
  exact .after (.updWriter _ _) (.after (.updEngine _ _) (.setSub _ _ _))

theorem Kept.recordRestored (s : State) (r : RegionId) (h : Header) : Kept s (s.recordRestored r h) := by
  unfold State.recordRestored
  extract_lets t
  refine .after (t := t) (.ite (fun _ => .closeWalk _ _) fun _ => ?_) (.updEngine _ _)
  exact .after (.readRecord _) (.updEngine _ _)

theorem Kept.lineRestored (s : State) (r : RegionId) (h : Header) (i : Nat) : Kept s (s.lineRestored r h i) := by
  unfold State.lineRestored
  split
  · exact .recordRestored _ _ _
  · exact .startRestore _ _ _

theorem Kept.restoreOutcome (s : State) (r : RegionId) (h : Header) (u : VerifiedUnit) (i addr : Nat)
    (outcome : Option Line) : Kept s (s.restoreOutcome r h u i addr outcome) := by
  unfold State.restoreOutcome
  dsimp only
  split
  · exact .updEngine _ _
  · exact .after (.handRoll _ _) (.updEngine _ _)
  · exact .after (.handRoll _ _) (.updEngine _ _)
  · exact .failWalk _ _ _
  · exact .lineRestored _ _ _ _

theorem Kept.headerIn (s : State) (r : RegionId) (x : Nat) (a b : Line) : Kept s (s.headerIn r x a b) := by
  unfold State.headerIn
  exact .ite (fun _ => .after (.handRoll _ _) (.updEngine _ _)) fun _ => .failCheck _ _ _ _

theorem Kept.dataIn (s : State) (r : RegionId) (x : Nat) (h : Header) (data : List Line) : Kept s (s.dataIn r x h data) := by
  unfold State.dataIn
  exact .ite (fun _ => .after (.startRestore _ _ _) (.updEngine _ _)) fun _ => .failCheck _ _ _ _

theorem Kept.blockIn (s : State) (r : RegionId) (x : Nat) : Kept s (s.blockIn r x) := by
  unfold State.blockIn
  split
  · exact .headerIn _ _ _ _ _
  · exact .ite (fun _ => .dataIn _ _ _ _ _) fun _ => .refl s
  · exact .refl s

theorem Kept.logBlockOutcome (s : State) (r : RegionId) (x addr : Nat) (outcome : Option Line) :
    Kept s (s.logBlockOutcome r x addr outcome) := by
  unfold State.logBlockOutcome
  split
  · exact .refl s
  · dsimp only
    split
    · exact .after (.blockIn _ _ _) (.updEngine _ _)
    · exact .ite (fun _ => .after (.handRoll _ _) (.updEngine _ _)) fun _ => .failWalk _ _ _

theorem Kept.rollbackOutcome (s : State) (addr : Nat) (outcome : Option Line) :
    Kept s (s.rollbackOutcome addr outcome) := by
  unfold State.rollbackOutcome
  split
  · split
    · exact .restoreOutcome _ _ _ _ _ _ _
    · exact .logBlockOutcome _ _ _ _ _
  · exact .refl s

/-! ## The Start-up Controller -/

/-- A fold of updates that each leave a field standing leaves it standing. -/
theorem foldl_field {α β : Type} (p : State → β) (f : State → α → State) (h : ∀ s a, p (f s a) = p s) (l : List α)
    (s : State) : p (l.foldl f s) = p s := by
  induction l generalizing s with
  | nil => rfl
  | cons a l ih => exact (ih _).trans (h s a)

/-- The geometry tests of R51 on an anchor's contents. -/
def AnchorContents.fits (a : AnchorContents) (memory : Nat) : Prop :=
  a.base % 4096 = 0 ∧ a.size % 4096 = 0 ∧ 8192 ≤ a.size ∧ a.size ≤ 2097152 ∧ a.base + a.size ≤ memory - 64

theorem validSlot_fits {s : State} {slot : Fin 2} {a : AnchorContents} (h : s.validSlot slot = some a) :
    a.fits s.memorySize := by
  unfold State.validSlot at h
  split at h
  · split at h
    · next b _ k =>
      cases h
      simp only [anchorValid, Bool.and_eq_true, beq_iff_eq, decide_eq_true_eq] at k
      obtain ⟨⟨⟨⟨⟨⟨⟨⟨_, _⟩, h1⟩, h2⟩, h3⟩, h4⟩, h5⟩, _⟩, _⟩ := k
      exact ⟨h1, h2, h3, h4, h5⟩
    · cases h
  · cases h

theorem selectAnchor_fits {s : State} {slot : Fin 2} {a : AnchorContents} (h : s.selectAnchor = some (slot, a)) :
    a.fits s.memorySize := by
  unfold State.selectAnchor at h
  split at h
  · cases h
  · next k _ => cases h; exact validSlot_fits k
  · next k => cases h; exact validSlot_fits k
  · next k j =>
    split at h <;> cases h
    · exact validSlot_fits k
    · exact validSlot_fits j

/-- The identity of the log is loaded in START (R121). -/
theorem Kept.loadAnchor (s : State) (slot : Fin 2) (a : AnchorContents) (h : s.device = .start)
    (hf : a.fits s.memorySize) : Kept s (s.loadAnchor slot a) :=
  .of_table ⟨rfl, rfl, rfl, rfl, rfl, rfl, rfl, rfl, rfl, rfl, rfl⟩
    ⟨id, .inl, id, .inl, fun k => k.congr rfl rfl rfl, fun k => absurd h k⟩
    { staged := fun _ => rfl
      live := fun _ => .inl rfl
      age := fun _ => id
      directory := id
      law := fun k => ⟨k.running, k.startup⟩
      windows := fun k =>
        have off : ∀ r, ((s.loadAnchor slot a).region r).live.enable ≠ true := fun r j =>
          absurd (j.symm.trans (k.startup (.inl h) r).1) (by simp)
        { ring := fun g j => by
            cases j
            obtain ⟨h1, h2, h3, h4, h5⟩ := hf
            exact ⟨h1, h2, by simp only [Geometry.blocks]; omega, by simp only [Geometry.blocks]; omega, h5⟩
          below := fun r j => absurd j (off r)
          area := fun r _ j => absurd j (off r)
          apart := fun q _ _ j => absurd j (off q)
          startup := k.startup } } (.of_eq rfl rfl) rfl rfl

theorem Kept.loadAtTail (s : State) (a : AnchorContents) : Kept s (s.loadAtTail a) := by
  unfold State.loadAtTail
  exact .after (.setLevel _) (.updLog _ rfl rfl)

theorem Kept.pushSlotFault (s : State) (slot : Fin 2) : Kept s (s.pushSlotFault slot) := by
  unfold State.pushSlotFault
  split
  · exact .pushFault _ _
  · exact .refl s

theorem State.pushSlotFault_device (s : State) (slot : Fin 2) : (s.pushSlotFault slot).device = s.device := by
  unfold State.pushSlotFault
  split <;> rfl

/-- Start-up entered LOG_FAULT, NOLOG or SCANNING from a state of START or SCANNING. -/
theorem Kept.leaveStart (s : State) (d : DeviceState) (h : s.device = .start ∨ s.device = .scanning)
    (hd : d ≠ .halted ∧ d ≠ .quiescing ∧ d ≠ .start ∧ (d = .scanning → s.device = .start)) : Kept s (s.setDevice d) :=
  .setDevice _ (by rcases h with h | h <;> simp [h]) (by rcases h with h | h <;> simp [h]) hd.1 hd.2.1
    (fun k => absurd k hd.2.2.1) (fun k => .inr (hd.2.2.2 k))

theorem Kept.startupLogFault (s : State) (h : s.device = .start) : Kept s s.startupLogFault := by
  have h2 : ((s.pushSlotFault 0).pushSlotFault 1).device = .start := by
    rw [State.pushSlotFault_device, State.pushSlotFault_device, h]
  have k : Kept s ((s.pushSlotFault 0).pushSlotFault 1) := .after (.pushSlotFault _ _) (.pushSlotFault _ _)
  unfold State.startupLogFault
  refine .after (.endStartup _) ?_
  cases hc : s.selectAnchor with
  | none => exact .after (.leaveStart _ _ (.inl h2) (by simp)) k
  | some c =>
    dsimp only
    refine .after (.leaveStart _ _ (.inl ?_) (by simp)) (.after (.loadAtTail _ _) (.after (.loadAnchor _ _ _ h2 ?_) k))
    · simp only [State.loadAtTail, State.loadAnchor, State.setLevel, State.updLog_device, h2]
    · have := selectAnchor_fits hc
      simpa only [State.memorySize, k.same.msize] using this

theorem Kept.loadScan (s : State) : Kept s s.loadScan := by
  unfold State.loadScan
  exact .after (.setLevel _) (.after (.updLog _ rfl rfl) (.foldl _ (fun s r => .updLog _ rfl rfl) _ s))

theorem State.loadScan_device (s : State) : s.loadScan.device = s.device := by
  unfold State.loadScan State.setLevel
  simp only [State.updLog_device]
  exact foldl_field State.device _ (fun t r => t.updLog_device _) allRegions s

/-- A region's context is set from its tracker while start-up scans, when the directory is empty (R129). -/
theorem Kept.setFromTracker (s : State) (txn : TxnState) (sub : SubState) (r : RegionId) (h : s.device = .scanning) :
    Kept s (s.setFromTracker txn sub r) := by
  unfold State.setFromTracker
  refine .of_table ⟨rfl, rfl, rfl, rfl, rfl, rfl, rfl, rfl, rfl, rfl, rfl⟩ (.of_eq rfl rfl rfl rfl rfl) ?_ (.of_eq rfl rfl)
    rfl rfl
  exact
    { staged := fun q => by rw [State.region_updRegion]; split_ifs with k <;> [(subst k; split <;> rfl); rfl]
      live := fun q => by rw [State.region_updRegion]; split_ifs with k <;> [(subst k; split <;> simp); simp]
      windows := fun j => j.congr
        (fun q => by rw [State.region_updRegion]; split_ifs with k <;> [(subst k; split <;> rfl); rfl])
        (fun q => by rw [State.region_updRegion]; split_ifs with k <;> [(subst k; split <;> rfl); rfl]) rfl rfl id
      age := fun q j => by rw [State.region_updRegion]; split_ifs with k <;> [(split <;> simp); exact j]
      directory := id
      law := fun k => ⟨fun d hd => by simp [show s.directory = [] from k.startup (.inr h)] at hd, k.startup⟩ }

theorem Kept.setRegions (s : State) (txn : TxnState) (sub : SubState) (h : s.device = .scanning) :
    Kept s (allRegions.foldl (State.setFromTracker · txn sub ·) s) :=
  .foldl_of (fun s => s.device = .scanning) _ (fun s r hs => .setFromTracker s txn sub r hs) (fun _ _ hs => hs) _ s h

theorem State.setRegions_device (s : State) (txn : TxnState) (sub : SubState) :
    (allRegions.foldl (State.setFromTracker · txn sub ·) s).device = s.device :=
  foldl_field State.device (State.setFromTracker · txn sub ·) (fun _ _ => rfl) allRegions s

theorem Kept.scanEnd (s : State) (h : s.device = .scanning) : Kept s s.scanEnd := by
  have h1 : s.loadScan.device = .scanning := s.loadScan_device.trans h
  unfold State.scanEnd
  refine .after (.leaveStart _ _ (.inr ?_) (by simp)) (.after (.updEngine _ _) (.after (.setRegions _ _ _ h1) (.loadScan s)))
  rw [State.updEngine_device, State.setRegions_device, h1]

theorem State.mapTags_device (s : State) (f : Tag → Tag) : (s.mapTags f).device = s.device := by
  unfold State.mapTags
  exact foldl_field State.device _ (fun s t => s.setTag_device t (f (s.tag t))) allTags s

theorem State.stopOwner_device (s : State) (o : Owner) : (s.stopOwner o).device = s.device := by
  unfold State.stopOwner State.discardOutcomes
  rw [State.mapTags_device]
  rfl

theorem Kept.scanExhausted (s : State) (addr n : Nat) (h : s.device = .scanning) : Kept s (s.scanExhausted addr n) := by
  unfold State.scanExhausted
  extract_lets t u v
  have h1 : u.device = .scanning := t.loadScan_device.trans h
  refine .after (.endStartup _) (.after (.leaveStart _ _ (.inr ?_) (by simp)) (.after (.stopOwner _ _)
    (.after (t := u) (.setRegions _ _ _ h1) (.after (.loadScan _) (.pushFault _ _)))))
  rw [State.stopOwner_device, State.setRegions_device, h1]

theorem Kept.scanHere (s : State) (h : s.device = .scanning) : Kept s s.scanHere := by
  unfold State.scanHere State.scanReads
  by_cases k : s.startup.distance + 1 = s.log.ring
  · simp only [k, if_true]
    exact .scanEnd s h
  · simp only [k, if_false]
    exact .after (.handRoll _ _) (.updStartup _ _)

theorem Kept.scanOn (s : State) (size position : Nat) (h : s.device = .scanning) : Kept s (s.scanOn size position) := by
  unfold State.scanOn
  exact .after (.scanHere _ h) (.updStartup _ _)

theorem Kept.scanRecord (s : State) (p : Nat) (x : Header) (h : s.device = .scanning) : Kept s (s.scanRecord p x) := by
  unfold State.scanRecord
  split
  · dsimp only
    split
    · exact .after (.scanOn _ _ _ h) (.updStartup _ _)
    · exact .scanEnd s h
  · exact .scanEnd s h

theorem Kept.scanRead (s : State) (p a n : Nat) : Kept s (s.scanRead p a n) := by
  unfold State.scanRead
  exact .after (.handRoll _ _) (.updStartup _ _)

theorem Kept.scanFirst (s : State) (b : Line) (h : s.device = .scanning) : Kept s (s.scanFirst b) := by
  unfold State.scanFirst
  dsimp only
  split_ifs
  · exact .scanOn _ _ _ h
  · exact .scanEnd s h
  · exact .scanEnd s h
  · exact .scanRead _ _ _ _
  · exact .scanEnd s h

theorem Kept.scanHeader (s : State) (a b : Line) (h : s.device = .scanning) : Kept s (s.scanHeader a b) := by
  unfold State.scanHeader
  dsimp only
  split_ifs
  · exact .scanRecord _ _ _ h
  · exact .scanRead _ _ _ _
  · exact .scanEnd s h

theorem Kept.scanData (s : State) (a b : Line) (data : List Line) (h : s.device = .scanning) :
    Kept s (s.scanData a b data) := by
  unfold State.scanData
  exact .ite (fun _ => .scanRecord _ _ _ h) fun _ => .scanEnd s h

theorem Kept.scanBlocksIn (s : State) (h : s.device = .scanning) : Kept s s.scanBlocksIn := by
  unfold State.scanBlocksIn
  refine .ite (fun _ => ?_) fun _ => .refl s
  split
  · exact .scanFirst _ _ h
  · exact .scanHeader _ _ _ h
  · exact .scanData _ _ _ _ h
  · exact .refl s

theorem Kept.scanOutcome (s : State) (addr : Nat) (outcome : Option Line) (h : s.device = .scanning) :
    Kept s (s.scanOutcome addr outcome) := by
  unfold State.scanOutcome
  split
  · exact .refl s
  · dsimp only
    split
    · exact .after (.scanBlocksIn _ h) (.updStartup _ _)
    · exact .ite (fun _ => .after (.handRoll _ _) (.updStartup _ _)) fun _ => .scanExhausted _ _ _ h

theorem Kept.select (s : State) (h : s.device = .start) : Kept s s.select := by
  unfold State.select
  refine .ite (fun _ => .startupLogFault s h) fun _ => ?_
  split
  · exact .after (.endStartup _) (.leaveStart _ _ (.inl h) (by simp))
  · next hc =>
    exact .after (.scanHere _ rfl) (.after (.updStartup _ _) (.after (.leaveStart _ _ (.inl h) ⟨by simp, by simp, by simp, fun _ => h⟩)
      (.loadAnchor _ _ _ h (selectAnchor_fits hc))))

theorem Kept.selectWhenKnown (s : State) (h : s.device = .start) : Kept s s.selectWhenKnown := by
  unfold State.selectWhenKnown
  exact .ite (fun _ => .select s h) fun _ => .refl s

theorem Kept.setSlot (s : State) (slot : Fin 2) (x : SlotRead) : Kept s (s.setSlot slot x) := by
  unfold State.setSlot
  exact .updStartup _ _

theorem Kept.slotReadOutcome (s : State) (addr : Nat) (outcome : Option Line) (h : s.device = .start) :
    Kept s (s.slotReadOutcome addr outcome) := by
  unfold State.slotReadOutcome
  split
  · exact .refl s
  · dsimp only
    split
    · exact .after (.selectWhenKnown _ h) (.setSlot _ _ _)
    · exact .ite (fun _ => .after (.handAnchor _ _) (.setSlot _ _ _)) fun _ => .after (.selectWhenKnown _ h) (.setSlot _ _ _)

theorem Kept.startupOutcome (s : State) (addr : Nat) (outcome : Option Line) : Kept s (s.startupOutcome addr outcome) := by
  unfold State.startupOutcome
  split
  · next h => exact .slotReadOutcome _ _ _ h
  · next h => exact .scanOutcome _ _ _ h
  · exact .refl s

/-! ## Quiesce -/

theorem Kept.writerSettled (s : State) : Kept s s.writerSettled := by
  unfold State.writerSettled
  exact .ite (fun _ => .updWriter _ _) fun _ => .refl s

theorem Kept.quiesceWriter (s : State) : Kept s s.quiesceWriter := by
  unfold State.quiesceWriter
  dsimp only
  split
  · exact .updWriter _ _
  · exact .after (.writerSettled _) (.ite (fun _ => .after (.updWriter _ _) (.updWriter _ _)) fun _ =>
      .after (.stopOwner _ _) (.after (.updWriter _ _) (.updWriter _ _)))

theorem Kept.quiesceEngine (s : State) : Kept s s.quiesceEngine := by
  unfold State.quiesceEngine
  split
  · exact .ite (fun _ => .stopOwner _ _) fun _ => .refl s
  · exact .stopOwner _ _

theorem Kept.quiesceStall (s : State) : Kept s s.quiesceStall := by
  unfold State.quiesceStall
  extract_lets a b c d
  refine .after (t := d) (.ite (fun _ => .halt _) fun _ => .refl _) ?_
  exact .after (.writerSettled _) (.after (.updLog _ rfl rfl) (.after (.updDport _ _ rfl) (.after (.answerErrors _ _ _) (.setStalled s))))

/-- The entry to QUIESCING: the phase and the device state change together. -/
theorem Kept.enterQuiescing (s : State) (h : s.device ≠ .halted) :
    Kept s ((s.updPowerFail fun p => { p with phase := .settling, entry := some s.device }).setDevice .quiescing) :=
  .of_table ⟨rfl, rfl, rfl, rfl, rfl, rfl, rfl, rfl, rfl, rfl, rfl⟩
    ⟨fun k => absurd k h, fun _ => .inl rfl, fun k => (by cases k), fun k => (by cases k),
     fun k => ⟨fun _ => .inl rfl, fun j => (by cases j), fun j => absurd rfl j, fun j => absurd (k.safeHalted j) h,
               fun j => (by cases j)⟩, fun _ => ⟨rfl, rfl⟩⟩
    (.of_eq rfl rfl (fun k => by rcases k with k | k <;> cases k) rfl rfl) (.of_eq rfl rfl) rfl rfl

theorem Kept.quiesce (s : State) (h : s.device ≠ .halted) : Kept s s.quiesce := by
  unfold State.quiesce
  extract_lets a b c d e
  refine .after (t := e) (.ite (fun _ => .quiesceStall _) fun _ => .refl _) ?_
  exact .after (.stopOwner _ _) (.after (.quiesceEngine _) (.after (.quiesceWriter _) (.after (.answerErrors _ _ _)
    (.after (.updLog _ rfl rfl) (.enterQuiescing s h)))))

/-- The phase becomes ANCHORING in QUIESCING. -/
theorem Kept.endSettling (s : State) (h : s.device = .quiescing) : Kept s s.endSettling := by
  unfold State.endSettling
  extract_lets t
  refine .after (t := t) (.ite (fun _ => .startAnchor _ _) fun _ => .halt _) (.of_table
    ⟨rfl, rfl, rfl, rfl, rfl, rfl, rfl, rfl, rfl, rfl, rfl⟩ ⟨id, .inl, id, .inl, fun k => ?_, fun _ => ⟨rfl, rfl⟩⟩
    (.of_eq rfl rfl id rfl rfl) (.of_eq rfl rfl) rfl rfl)
  exact ⟨fun _ => .inr rfl, fun j => absurd (h.symm.trans j) (by simp), fun j => absurd h j, k.safeHalted, k.haltedSafe⟩

end Sys2Proof.Machine
end

