-- ==== Sys2Proof/Laws/KeptEvents.lean ====
section
/-! SUPPORT. What follows on an event, said once, and what it and the delivery of downstream outcomes keep. -/

namespace Sys2Proof.Machine

/-! ## What follows on an event -/

/-- A WAIT_ORDER entry of the table starts when the same-line order lets it. -/
theorem Kept.startWaiting {s : State} {e : Entry} (h : s.entry e.tag = some e) (hm : s.mayStart e = true) :
    Kept s (s.startEntry e) := by
  have he : e ∈ s.table := List.mem_of_find?_eq_some h
  have ht : e.tag ∈ s.tags := List.mem_map_of_mem he
  obtain ⟨reason, k⟩ | ⟨st, hd, hst, k⟩ := startEntry_cases s e
  · rw [k]; exact .answer _ _ fun _ => ht
  · rw [k]
    refine { Base.placed s e.tag _ hd hst with
             account := fun _ => accounted_placed s _ _ _ _
             line := fun hn hl => ?_ }
    obtain ⟨pre, post, hs⟩ := List.append_of_mem he
    have hpre : ∀ x ∈ pre, x.tag ≠ e.tag := by
      simp only [State.tags, hs, List.map_append, List.map_cons] at hn
      intro x hx hxe
      have := (List.nodup_append.mp hn).2.2
      exact this _ (List.mem_map_of_mem hx) _ (by simp) hxe
    have hold : ∀ x ∈ pre, lineOf x.addr ≠ lineOf e.addr := by
      simp only [State.mayStart, Bool.and_eq_true, Bool.not_eq_true', State.olderSameLine] at hm
      have h1 := hm.1.2
      intro x hx hxe
      have : x ∈ s.table.takeWhile fun y => decide (y.tag ≠ e.tag) := by
        rw [hs, List.takeWhile_append_of_pos (by simpa using hpre)]
        exact List.mem_append_left _ hx
      have h2 : ((s.table.takeWhile fun y => decide (y.tag ≠ e.tag)).any fun y => lineOf y.addr == lineOf e.addr) = true :=
        List.any_eq_true.mpr ⟨x, this, by simp [hxe]⟩
      rw [h2] at h1
      cases h1
    simp only [LineLaw, State.placed, State.updEntry, List.pairwise_map]
    have hl' := hl
    simp only [LineLaw] at hl'
    rw [hs] at hl' ⊢
    rw [List.pairwise_append] at hl' ⊢
    obtain ⟨l1, l2, l3⟩ := hl'
    rw [List.pairwise_cons] at l2 ⊢
    simp only [State.tags, hs, List.map_append, List.map_cons] at hn
    have hpost : ∀ x ∈ post, x.tag ≠ e.tag := fun x hx hxe =>
      (List.nodup_cons.mp (List.nodup_append.mp hn).2.1).1 (hxe ▸ List.mem_map_of_mem hx)
    refine ⟨l1.imp_of_mem fun {a b} ha hb j => ?_, ⟨fun b hb j => ?_, l2.2.imp_of_mem fun {a b} ha hb j => ?_⟩,
      fun a ha b hb j => ?_⟩
    · simpa [hpre a ha, hpre b hb] using j
    · simp only [hpost b hb, if_true, if_false] at j ⊢
      exact l2.1 b hb j
    · simpa [hpost a ha, hpost b hb] using j
    · simp only [hpre a ha, if_false] at j
      rcases List.mem_cons.mp hb with rfl | hb
      · simp only [if_true] at j
        exact absurd j (hold a ha)
      · simp only [hpost b hb, if_false] at j ⊢
        exact l3 a ha b (List.mem_cons_of_mem _ hb) j

theorem Kept.startDue (s : State) (tag : HostTag) : Kept s (s.startDue tag) := by
  unfold State.startDue
  split
  · next e he =>
    have : e.tag = tag := by simpa using List.find?_some he
    subst this
    exact .ite (fun k => .startWaiting he k) fun _ => .refl s
  · exact .refl s

theorem Kept.startEntries (s : State) : Kept s s.startEntries := .foldl _ Kept.startDue _ s

theorem Kept.nextWalk (s : State) : Kept s s.nextWalk := by
  unfold State.nextWalk
  split
  · exact .ite (fun _ => .startWalk _ _) fun _ => .refl s
  · exact .refl s

theorem Kept.passDrain (s : State) : Kept s s.passDrain := by
  unfold State.passDrain
  split
  · exact .ite (fun _ => .startWalking _ _) fun _ => .refl s
  · exact .refl s

theorem Kept.endRecovery (s : State) : Kept s s.endRecovery := by
  unfold State.endRecovery
  split
  · exact .startAnchor _ _
  · exact .ite (fun _ => .refl s) fun _ => .updLog _ rfl rfl

theorem Kept.passRecovery (s : State) : Kept s s.passRecovery := by
  unfold State.passRecovery
  exact .ite (fun _ => .endRecovery s) fun _ => .refl s

theorem Kept.passSettling (s : State) : Kept s s.passSettling := by
  unfold State.passSettling
  exact .ite (fun k => .endSettling s k.1) fun _ => .refl s

theorem Kept.followOn (s : State) : Kept s s.followOn :=
  .after (.passSettling _) (.after (.passRecovery _) (.after (.passDrain _) (.after (.nextWalk _) (.startEntries s))))

/-! ## The delivery of outcomes -/

theorem Kept.completeEntry (s : State) (t : HostTag) (outcome : Option Line) : Kept s (s.completeEntry t outcome) := by
  unfold State.completeEntry State.entry
  split
  · exact .refl s
  · next e h =>
    have he : e.tag ∈ s.tags := List.mem_map_of_mem (List.mem_of_find?_eq_some h)
    refine .ite (fun _ => .refl s) fun _ => ?_
    split
    · exact .answer _ _ fun _ => he
    · exact .after (.answer _ _ fun _ => he) (.pushFault _ _)

theorem Kept.deliver (s : State) (o : Owner) (live : Bool) (addr : Nat) (outcome : Option Line) :
    Kept s (s.deliver o live addr outcome) := by
  unfold State.deliver
  split
  · exact .completeEntry _ _ _
  · exact .ite (fun _ => .anchorOutcome _ _ _) fun _ => .refl s
  · exact .ite (fun _ => .writerSettled _) fun _ => .ite (fun _ => .writerOutcome _ _ _) fun _ => .refl s
  · exact .ite (fun _ => .rollbackOutcome _ _ _) fun _ => .refl s
  · exact .ite (fun _ => .startupOutcome _ _ _) fun _ => .refl s

theorem Kept.respond (s : State) (t : DownTag) (ok : Bool) (data : Line) : Kept s (s.respond t ok data) := by
  unfold State.respond
  split
  · exact .refl s
  · exact .after (.followOn _) (.setTag _ _ _)
  · exact .after (.followOn _) (.after (.deliver _ _ _ _ _) (.setTag _ _ _))

theorem Kept.stallBegins (s : State) : Kept s s.stallBegins := by
  unfold State.stallBegins
  dsimp only
  split
  · exact .after (.quiesceStall _) (.pushFault _ _)
  · exact .after (.setStalled _) (.pushFault _ _)
  · exact .pushFault _ _

theorem Kept.expire (s : State) (o : Owner) (live : Bool) (addr : Nat) : Kept s (s.expire o live addr) := by
  unfold State.expire
  refine .ite (fun _ => ?_) fun _ => .deliver _ _ _ _ _
  exact .ite (fun _ => .after (.deliver _ _ _ _ _) (.after (.stallBegins _) (.freeCount _ _)))
    fun _ => .after (.stallBegins _) (.after (.deliver _ _ _ _ _) (.freeCount _ _))

theorem Kept.timeout (s : State) (t : DownTag) : Kept s (s.timeout t) := by
  unfold State.timeout
  split
  · exact .after (.followOn _) (.after (.expire _ _ _ _) (.setTag _ _ _))
  · exact .refl s

end Sys2Proof.Machine
end

