-- ==== Sys2Proof/Laws/KeptCommands.lean ====
section
/-! SUPPORT. What the commands and events keep: `exec_kept` says once, for every command but those that set a part of the
state directly, that its effect is `Kept`, the link's held frame apart. -/

namespace Sys2Proof.Machine

/-! ## Replies -/

@[simp] theorem done_state (t : State) : (done t).state = t := rfl

@[simp] theorem done_result (t : State) : (done t).result = .ok := rfl

@[simp] theorem done_data (t : State) : (done t).data = [] := rfl

@[simp] theorem State.reply_state (s : State) (r : ResultCode) : (s.reply r).state = s := rfl

@[simp] theorem State.reply_result (s : State) (r : ResultCode) : (s.reply r).result = r := rfl

@[simp] theorem State.reply_data (s : State) (r : ResultCode) : (s.reply r).data = [] := rfl

/-- A link command where the link can take it: its owner's reply, held in the frame. -/
theorem takes_of_reply {c : Instr} {s : State} {len : Nat} {owner : State → Reply} (h : LinkReady s)
    (he : exec c s = .next (s.takeCommand c len owner)) :
    Takes c s (owner s).result (if (owner s).result = .ok then (owner s).data else List.replicate len 0)
      (owner s).state := by
  obtain ⟨h1, h2, h3⟩ := h
  simp [Takes, he, State.takeCommand, State.linkFree, h1, h2, h3, State.holdFrame, replyFrame]

theorem admitsAll_iff (s : State) : s.admitsAll = true ↔ Serving s := by
  simp [State.admitsAll, Serving, or_assoc]

/-! ## FORMAT -/

/-- The state FORMAT gives the device and the log, before the regions are dealt with (R56, steps 1 to 3). -/
def State.formatStart (s : State) (g : Geometry) : State :=
  (s.setDevice .formatting).updLog fun l =>
    { l with geometry := some g, generation := l.nextGeneration, nextSeq := 0, head := 0, volatileTail := 0,
             tailSeq := 0, durableTail := 0, unresolved := 0, firstSeqs := Vector.replicate 8 none,
             anchorWanted := false, formatPending := true, formatDrain := s.startedIn g }

theorem Kept.formatRegion (s : State) (r : RegionId) : Kept s (s.formatRegion r) := by
  unfold State.formatRegion
  dsimp only
  exact .after (t := s.updRegion r _) (.ite (fun _ => .returnToIdle _ _ _) fun _ => .refl _) (.updRegion _ _ rfl rfl id (.inl rfl))

/-- What FORMAT does to the regions, and what follows, is kept from its start. -/
theorem Kept.takeFormat (s : State) (g : Geometry) : Kept (s.formatStart g) (s.takeFormat g).followOn := by
  unfold State.takeFormat
  exact .after (.followOn _) (.after (.foldl _ Kept.formatRegion _ _) (.setLevel _))

/-- FORMAT changes nothing, or has passed its checks and is taken. -/
theorem formatReply_cases (base units : Nat) (s : State) :
    (formatReply base units s).state = s ∨
      (base % 4096 = 0 ∧ 2 ≤ units ∧ units ≤ 512) ∧ s.log.anchor.isSome = false ∧
        s.areaMeets base (4096 * units) = false ∧
        formatReply base units s = done (s.takeFormat { base := base, size := 4096 * units }).followOn := by
  unfold formatReply
  by_cases h1 : base % 4096 = 0 ∧ 2 ≤ units ∧ units ≤ 512
  · rw [if_neg (not_not.mpr h1)]
    by_cases h2 : s.device ≠ .logFault ∧ s.someTxnRuns = true
    · rw [if_pos h2]; exact .inl rfl
    · rw [if_neg h2]
      cases h3 : s.log.anchor.isSome
      · rw [if_neg (by simp)]
        cases h4 : s.areaMeets base (4096 * units)
        · exact .inr ⟨h1, rfl, rfl, if_neg (by simp)⟩
        · rw [if_pos rfl]; exact .inl rfl
      · rw [if_pos rfl]; exact .inl rfl
  · rw [if_pos h1]; exact .inl rfl

/-! ## Link commands -/

theorem Kept.refuseHeld (s : State) (r : RegionId) : Kept s (s.refuseHeld r) := by
  unfold State.refuseHeld
  split
  · exact .after (.dropPending _ _ _) (.after (.answerErrors _ _ _) (.updWriter _ _))
  · exact .refl s

theorem Kept.takeCommit (s : State) (r : RegionId) : Kept s (s.takeCommit r) := by
  unfold State.takeCommit
  extract_lets a b drain c
  refine .after (t := c) (.ite (fun _ => .completeCommit _ _) fun _ => .refl _) ?_
  exact .after (.updRegion _ _ rfl rfl id (.inl rfl)) (.after (.refuseHeld _ _) (.updRegion _ _ rfl rfl id (.inr (.inr rfl))))

theorem Kept.commitReply (r : RegionId) (s : State) : Kept s (commitReply r s).state := by
  unfold Machine.commitReply
  split
  · exact .after (.followOn _) (.takeCommit s r)
  · exact .refl s

theorem Kept.abortReply (r : RegionId) (s : State) : Kept s (abortReply r s).state := by
  unfold Machine.abortReply
  split
  · exact .after (.followOn _) (.abortTxn s r)
  · exact .refl s

theorem Kept.retryReply (r : RegionId) (s : State) : Kept s (retryReply r s).state := by
  unfold Machine.retryReply
  split_ifs with _ h
  · exact .refl s
  · exact .after (.followOn _) (.queueFaulted s r h)
  · exact .refl s

theorem Kept.applyNowReply (r : RegionId) (s : State) : Kept s (applyNowReply r s).state := by
  unfold Machine.applyNowReply
  split_ifs with _ h
  · exact .applyStaged s r h
  · exact .refl s
  · exact .refl s

theorem Kept.applyAtCloseReply (r : RegionId) (s : State) : Kept s (applyAtCloseReply r s).state := by
  unfold Machine.applyAtCloseReply
  split_ifs with _ h
  · exact .applyStaged s r h
  · exact .setApply s r _
  · exact .setApply s r _

theorem Kept.openTxn (s : State) (r : RegionId) : Kept s (s.openTxn r) :=
  .updRegion r _ rfl rfl (fun _ => Nat.zero_le _) (.inr (.inl rfl))

theorem Kept.beginEnabled (r : RegionId) (s : State) : Kept s (beginEnabled r s).state := by
  unfold Machine.beginEnabled
  split
  · exact .openTxn s r
  · exact .refl s

theorem Kept.beginReply (r : RegionId) (s : State) : Kept s (beginReply r s).state := by
  unfold Machine.beginReply
  split_ifs with _ _ _ h
  · exact .refl s
  · exact .refl s
  · exact (Kept.applyStaged s r h).trans (.beginEnabled _ _)
  · exact .setApply s r _
  · exact .beginEnabled r s

theorem Kept.dportClearReply (s : State) : Kept s (dportClearReply s).state := .after (.followOn _) (.mapTags s _)

/-! ## Where a command's owner acts -/

theorem Kept.gated {f : State → Reply} {s : State} (h : Kept s (f s).state) : Kept s (gated f s).state := by
  unfold Machine.gated
  split
  · exact h
  · exact .refl s

theorem Kept.onRegion {b : Byte} {f : RegionId → State → Reply} {s : State} (h : ∀ r, Kept s (f r s).state) :
    Kept s (onRegion b f s).state := by
  unfold Machine.onRegion
  split
  · exact h _
  · exact .refl s

/-! ## Events -/

theorem Kept.expireAge (s : State) (r : RegionId) : Kept s (s.expireAge r) := by
  have k : Kept s ((s.updRegion r fun x => { x with expiryDue := false }).setNotice (ageExpired r)) :=
    .setRegionNotice (.updRegion _ _ rfl rfl id (.inl rfl)) _ (ageExpired_ne_zero r)
  unfold State.expireAge
  dsimp only
  split
  · exact k
  · exact .after (.abortTxn _ _) k

theorem Kept.takeExpiry (s : State) (r : RegionId) : Kept s (s.takeExpiry r) :=
  .ite (fun _ => .expireAge s r) fun _ => .refl s

theorem Kept.takeExpiries (s : State) : Kept s s.takeExpiries := .foldl _ Kept.takeExpiry _ s

theorem Kept.commitPhase (s : State) (r : RegionId) : Kept s (s.commitPhase r) := by
  unfold State.commitPhase
  exact .ite (fun _ => .completeCommit _ _) fun _ => .after (.updWriter _ _) (.updRegion _ _ rfl rfl id (.inl rfl))

theorem Kept.beginFormatAnchors (s : State) : Kept s s.beginFormatAnchors := by
  unfold State.beginFormatAnchors
  exact .ite (fun _ => .after (.startAnchor _ _) (.updLog _ rfl rfl)) fun _ => .refl s

/-! ## All commands -/

/-- The commands that set a part of the state directly, which `Kept` does not cover: settings, the two halves of reset, the
ports' tables, time and the link itself. -/
def setsState : Instr → Bool
  | .stage _ _ _ | .format _ _ | .setParam _ _ | .setPriority _ _ | .setThreshold _ | .popFault | .claim
  | .frameDiscard _ | .frameEnd | .resetAssert | .resetRelease _ _ | .firstIssueDelayExpiry | .upstreamRequest _
  | .downstreamIssue | .tick => true
  | _ => false

/-- A state reached by kept updates, the link's held frame apart. -/
def KeptHolding (s t : State) : Prop := Kept s t ∨ ∃ u f, Kept s u ∧ t = u.holdFrame f

theorem KeptHolding.takeCommand {s : State} {c : Instr} {len : Nat} {owner : State → Reply}
    (h : Kept s (owner s).state) : KeptHolding s (s.takeCommand c len owner) := by
  unfold State.takeCommand
  split
  · exact .inr ⟨_, _, h, rfl⟩
  · exact .inl (.refl s)

theorem Kept.unlessReset {s : State} {f : State → State} (h : Kept s (f s)) : Kept s (s.unlessReset f) := by
  unfold State.unlessReset
  split
  · exact .refl s
  · exact h

/-- What every command that sets no part of the state directly does. -/
theorem exec_kept {c : Instr} (hc : setsState c = false) (s : State) : ∃ t, exec c s = .next t ∧ KeptHolding s t := by
  cases c
  case ident | readStatus | readLog | readPending | readFault => exact ⟨_, rfl, .takeCommand (.refl s)⟩
  case readRegion => exact ⟨_, rfl, .takeCommand (.gated (.onRegion fun _ => .refl s))⟩
  case readParam p =>
    refine ⟨_, rfl, .takeCommand ?_⟩
    unfold readParamReply
    split <;> exact .refl s
  case applyNow => exact ⟨_, rfl, .takeCommand (.gated (.onRegion fun r => .applyNowReply r s))⟩
  case applyAtClose => exact ⟨_, rfl, .takeCommand (.gated (.onRegion fun r => .applyAtCloseReply r s))⟩
  case applyAtBegin => exact ⟨_, rfl, .takeCommand (.gated (.onRegion fun r => .setApply s r _))⟩
  case applyCancel => exact ⟨_, rfl, .takeCommand (.gated (.onRegion fun r => .setApply s r _))⟩
  case beginTxn => exact ⟨_, rfl, .takeCommand (.gated (.onRegion fun r => .beginReply r s))⟩
  case commit => exact ⟨_, rfl, .takeCommand (.gated (.onRegion fun r => .commitReply r s))⟩
  case abort => exact ⟨_, rfl, .takeCommand (.gated (.onRegion fun r => .abortReply r s))⟩
  case retry => exact ⟨_, rfl, .takeCommand (.gated (.onRegion fun r => .retryReply r s))⟩
  case dportClear => exact ⟨_, rfl, .takeCommand (.gated (.dportClearReply s))⟩
  case unknownCommand code ops =>
    refine ⟨_, rfl, ?_⟩
    unfold State.takeUnknown
    split_ifs
    · exact .takeCommand (.refl s)
    · exact .takeCommand (.gated (.onRegion fun _ => .refl s))
    · exact .inl (.refl s)
  case powerFailWarning =>
    exact ⟨_, rfl, .inl (.unlessReset (.ite (fun _ => .refl s) fun k => .after (.followOn _) (.quiesce s fun j => k (.inr j))))⟩
  case entryStart tag =>
    refine ⟨_, rfl, .inl (.unlessReset ?_)⟩
    split
    · next e he =>
      have : e.tag = tag := by simpa using List.find?_some he
      subst this
      exact .ite (fun k => .after (.followOn _) (.startWaiting he k)) fun _ => .refl s
    · exact .refl s
  case downstreamResponse tag ok data => exact ⟨_, rfl, .inl (.unlessReset (.respond s tag ok data))⟩
  case responseTimeout tag => exact ⟨_, rfl, .inl (.unlessReset (.timeout s tag))⟩
  case ageExpiry r => exact ⟨_, rfl, .inl (.unlessReset (.ite (fun _ => .after (.followOn _) (.expireAge s r)) fun _ => .refl s))⟩
  case chooseNextWork => exact ⟨_, rfl, .inl (.unlessReset (.ite (fun _ => .after (.followOn _) (.chooseWork s)) fun _ => .refl s))⟩
  case commitDrainComplete r => exact ⟨_, rfl, .inl (.unlessReset (.ite (fun _ => .after (.followOn _) (.commitPhase s r)) fun _ => .refl s))⟩
  case walkStart => exact ⟨_, rfl, .inl (.unlessReset (.nextWalk s))⟩
  case walkDrainComplete => exact ⟨_, rfl, .inl (.unlessReset (.passDrain s))⟩
  case formatAnchorWrites => exact ⟨_, rfl, .inl (.unlessReset (.beginFormatAnchors s))⟩
  case recoveryEnd => exact ⟨_, rfl, .inl (.unlessReset (.passRecovery s))⟩
  case settlingEnd => exact ⟨_, rfl, .inl (.unlessReset (.passSettling s))⟩
  all_goals exact absurd (show true = false from hc) (by simp)

end Sys2Proof.Machine
end

