-- ==== Sys2Proof/Laws/Effects.lean ====
section
/-! SUPPORT. What single operations do, said once: placement at the head, the space level, the lines of a group, the start of
an anchor write, the answering of entries, the expiries of a tick and the judging of an attempt. -/

namespace Sys2Proof.Machine

/-! ## The log -/

/-- A test of the space level changes that level and the notices only (R54). -/
theorem State.noteFree_eq (s : State) (old : Nat) :
    ∃ below notices, s.noteFree old = { s with log := { s.log with below := below }, notices := notices } := by
  unfold State.noteFree
  split_ifs <;> exact ⟨_, _, rfl⟩

/-- The placement the Log Manager returns is R40's. -/
theorem LogState.placement_at (l : LogState) (g : Geometry) (hg : l.geometry = some g) (hh : l.head < g.blocks) (size : Nat) :
    PlacedAt g.blocks l.head l.nextSeq size (l.placement size).1.index (l.placement size).2 (l.placement size).1.marker
      (l.headAfter size) ((l.placement size).2 + 1) := by
  have hr : l.ring = g.blocks := by simp [LogState.ring, hg]
  constructor
  · intro h
    have : size ≤ g.blocks - l.head := by omega
    simp only [LogState.placement, LogState.headAfter, hr, this, if_true, and_self]
  · intro h
    have : ¬size ≤ g.blocks - l.head := by omega
    simp only [LogState.placement, LogState.headAfter, hr, this, if_false, true_and]
    exact BitVec.add_assoc _ _ _

/-- An anchor write started with a geometry is R52's, and touches the log and the anchor queue only. -/
theorem State.startAnchor_started (s : State) (p : AnchorPurpose) (g : Geometry) (hg : s.log.geometry = some g) :
    AnchorStarted s (s.startAnchor p) p g ∧
      ∃ a, s.startAnchor p = { s with log := { s.log with anchor := some a }, dport := (s.startAnchor p).dport } := by
  unfold State.startAnchor
  rw [hg]
  refine ⟨⟨_, rfl, rfl, ?_, ?_, rfl, rfl, rfl, rfl, rfl⟩, ⟨_, rfl⟩⟩
  · intro h
    simp [LogState.nextSlot, h]
  · intro i h
    simp only [LogState.nextSlot, h]
    clear h
    revert i
    decide

/-! ## Groups -/

/-- The lines of a group are those of its members, in their order. -/
theorem groupLines_addr (n : Nat) (es : List Entry) : (groupLines n es).map GroupLine.addr = es.map fun e => lineOf e.addr := by
  induction es generalizing n with
  | nil => cases n <;> rfl
  | cons e es ih => cases n <;> simp [groupLines, ih]

/-- Every line of a group has a directory entry exactly when the free entries suffice (R61). -/
theorem groupLines_all (n : Nat) (es : List Entry) :
    (groupLines n es).all GroupLine.inDirectory = decide (es.length ≤ n) := by
  induction es generalizing n with
  | nil => cases n <;> simp [groupLines]
  | cons e es ih => cases n <;> simp [groupLines, ih]

/-! ## Entries -/

/-- With distinct tags, the entry holding a tag is the one that stands in the table. -/
theorem State.entry_of_stands {s : State} {pre post : List Entry} {e : Entry} (h : InRange s) (hs : Stands s pre e post) :
    s.entry e.tag = some e := by
  unfold State.entry
  have hn := h.tags
  rw [hs] at hn ⊢
  simp only [List.map_append, List.map_cons, List.nodup_append, List.nodup_cons] at hn
  rw [List.find?_append, List.find?_eq_none.mpr, Option.none_or, List.find?_cons_of_pos (by simp)]
  intro x hx
  simpa using hn.2.2 x.tag (List.mem_map_of_mem hx) e.tag (by simp)

/-- With distinct tags, what leaves the table with an answered entry is that entry alone. -/
theorem State.table_answer_of_stands {s : State} {pre post : List Entry} {e : Entry} (h : InRange s)
    (hs : Stands s pre e post) (reason : Reason) (data : List Word32) : (s.answer e reason data).table = pre ++ post := by
  have hn := h.tags
  obtain ⟨_, _, _, hu⟩ : ∃ a b c, s.answer e reason data = { s with
      responses := a, table := s.table.filter (fun x => x.tag ≠ e.tag), regions := b, engine := c,
      log := (s.answer e reason data).log } := by
    rw [s.answer_update]
    exact ⟨_, _, _, rfl⟩
  rw [hu]
  show s.table.filter _ = _
  rw [hs] at hn ⊢
  simp only [List.map_append, List.map_cons, List.nodup_append, List.nodup_cons] at hn
  rw [List.filter_append, List.filter_cons_of_neg (by simp), List.filter_eq_self.mpr, List.filter_eq_self.mpr]
  · intro x hx
    have : x.tag ≠ e.tag := fun k => hn.2.1.1 (k ▸ List.mem_map_of_mem hx)
    simpa using this
  · intro x hx
    simpa using hn.2.2 x.tag (List.mem_map_of_mem hx) e.tag (by simp)

/-! ## Descriptor checks -/

/-- Two spans that are not empty meet exactly when they share an address. -/
theorem spansMeet_iff {a la b lb : Nat} (ha : 0 < la) (hb : 0 < lb) :
    spansMeet a la b lb = true ↔ ∃ x, (a ≤ x ∧ x < a + la) ∧ b ≤ x ∧ x < b + lb := by
  simp only [spansMeet, Bool.and_eq_true, decide_eq_true_eq]
  constructor
  · intro h
    exact ⟨max a b, by omega, by omega⟩
  · rintro ⟨x, h, k⟩
    omega

/-- The checks the Configuration Store makes are those of R5. -/
theorem State.stagedPasses_iff {s : State} (hi : InRange s) (hw : WindowLaw s) (r : RegionId) :
    s.stagedPasses r = true ↔ PassesChecks s r := by
  have size (q : RegionId) : 0 < 32 * (s.region q).live.size := by have := (hi.live q).sized; omega
  have own : 0 < 32 * (s.region r).staged.size := by have := (hi.staged r).sized; omega
  unfold State.stagedPasses PassesChecks
  cases he : (s.region r).staged.enable
  · simp [he]
  · simp only [he, Bool.not_true, Bool.false_or, Bool.and_eq_true, decide_eq_true_eq, List.all_eq_true, Bool.or_eq_true,
      beq_iff_eq, Bool.not_eq_true', forall_const, Descriptor.holds, Geometry.holds, and_assoc]
    refine and_congr_right fun _ => and_congr ?_ ?_
    · cases hg : s.log.geometry with
      | none => simp
      | some g =>
        have hgs : 0 < g.size := by
          have := (hw.ring g hg).2.2.1
          unfold Geometry.blocks at this
          omega
        simp only [Bool.not_eq_true', Option.some.injEq, forall_eq']
        rw [← Bool.not_eq_true, spansMeet_iff own hgs, not_exists]
        simp only [and_assoc]
    · constructor
      · intro h q hq hl addr
        rcases h q (mem_allRegions q) with (h | h) | h
        · exact absurd h hq
        · rw [hl] at h
          cases h
        · rw [← Bool.not_eq_true, spansMeet_iff own (size q), not_exists] at h
          simpa only [and_assoc] using h addr
      · intro h q _
        by_cases hq : q = r
        · exact .inl (.inl hq)
        · cases hl : (s.region q).live.enable
          · exact .inl (.inr rfl)
          · refine .inr ?_
            rw [← Bool.not_eq_true, spansMeet_iff own (size q), not_exists]
            simpa only [and_assoc] using h q hq hl

/-! ## Expiries -/

/-- An expiry that is due is taken, and without one nothing changes (R28, R29). -/
theorem State.takeExpiry_cases (s : State) (r : RegionId) :
    (s.expiryDue r = true ∧ s.takeExpiry r = s.expireAge r) ∨ (s.expiryDue r = false ∧ s.takeExpiry r = s) := by
  unfold State.takeExpiry
  cases s.expiryDue r <;> simp

/-- What every expiry keeps, the expiries of a tick keep. -/
theorem State.takeExpiries_keeps {P : State → Prop} {s : State} (hs : P s)
    (step : ∀ s r, P s → s.expiryDue r = true → P (s.expireAge r)) : P s.takeExpiries := by
  unfold State.takeExpiries
  generalize allRegions = l
  induction l generalizing s with
  | nil => exact hs
  | cons r l ih =>
    refine ih ?_
    obtain ⟨h, e⟩ | ⟨-, e⟩ := s.takeExpiry_cases r
    · rw [e]; exact step s r hs h
    · rwa [e]

/-- A tick that makes no transaction expire takes no expiry. -/
theorem State.takeExpiries_eq_self {s : State} (h : ∀ r, s.expiryDue r = false) : s.takeExpiries = s := by
  refine State.takeExpiries_keeps (P := (· = s)) rfl ?_
  rintro _ r rfl hd
  rw [h r] at hd
  cases hd

/-! ## Attempts -/

/-- A failed attempt is followed by a rewrite exactly while the rewrites made are fewer than the limit (R103). -/
theorem VerifiedUnit.judge_failed (u : VerifiedUnit) (limit : Nat) (hl : u.left = 0) (hf : u.failed = true) :
    u.judge limit = if u.attempts - 1 < limit then
      .rewrite { u with attempts := u.attempts + 1, readBack := false, left := u.blocks.length, failed := false }
    else .exhausted u.attempts := by
  simp [VerifiedUnit.judge, hl, hf]

/-- An attempt whose last request ends well passes from its writes to its read-backs, and from these to its end (R102). -/
theorem VerifiedUnit.judge_good (u : VerifiedUnit) (limit : Nat) (hl : u.left = 0) (hf : u.failed = false) :
    u.judge limit = if u.readBack then .durable else .readBack { u with readBack := true, left := u.blocks.length } := by
  simp [VerifiedUnit.judge, hl, hf]

end Sys2Proof.Machine
end

