-- ==== Sys2Proof/Laws/FollowOn.lean ====
section
/-! SUPPORT. What follows on an event, operation by operation: each either finds its conditions unmet and leaves the state, or
meets them and is the one thing the rule gives. -/

namespace Sys2Proof.Machine

theorem State.working_iff (s : State) : s.working = true ↔ s.device = .run ∨ s.device = .restoring := by
  simp [State.working]

theorem State.recovered_iff (s : State) :
    s.recovered = true ↔ s.device = .restoring ∧ s.engine.queue = [] ∧ s.engine.walk = none := by
  simp [State.recovered, and_assoc]

/-- The pass over the table is a sequence of starts of entries that may start (R155): it keeps whatever each of them keeps. -/
theorem State.startEntries_keeps {P : State → Prop}
    (h : ∀ s e, P s → s.entry e.tag = some e → s.mayStart e = true → P (s.startEntry e)) {s : State} (hs : P s) :
    P s.startEntries := by
  have one (s : State) (tag : HostTag) (hs : P s) : P (s.startDue tag) := by
    unfold State.startDue
    split
    · next e he =>
      have ht : e.tag = tag := by simpa using List.find?_some he
      subst ht
      split_ifs with hm
      · exact h s e hs he hm
      · exact hs
    · exact hs
  unfold State.startEntries
  generalize s.table.map Entry.tag = tags
  induction tags generalizing s with
  | nil => exact hs
  | cons tag tags ih => exact ih (one s tag hs)

/-- A pass over the table in which no entry may start leaves the state. -/
theorem State.startEntries_eq_self {s : State} (h : ∀ e ∈ s.table, s.mayStart e = false) : s.startEntries = s := by
  have one (tag : HostTag) : s.startDue tag = s := by
    unfold State.startDue
    split
    · next e he => simp [h e (List.mem_of_find?_eq_some he)]
    · rfl
  unfold State.startEntries
  generalize s.table.map Entry.tag = tags
  induction tags with
  | nil => rfl
  | cons tag tags ih => rw [List.foldl_cons, one, ih]

/-- The next walk is started, or there is none to start (R85). -/
theorem State.nextWalk_cases (s : State) :
    (∃ r rest, s.working = true ∧ s.engine.walk = none ∧ s.engine.queue = r :: rest ∧ s.nextWalk = s.startWalk r) ∨
      (s.working = false ∨ s.engine.walk ≠ none ∨ s.engine.queue = []) ∧ s.nextWalk = s := by
  unfold State.nextWalk
  split
  · next r rest hw hq =>
    split_ifs with h
    · exact .inl ⟨r, rest, h, hw, hq, rfl⟩
    · exact .inr ⟨.inl (by simpa using h), rfl⟩
  · next hn =>
    refine .inr ⟨.inr ?_, rfl⟩
    cases hw : s.engine.walk with
    | some r => exact .inl (by simp)
    | none =>
      cases hq : s.engine.queue with
      | nil => exact .inr rfl
      | cons r rest => exact absurd hq (hn r rest hw)

/-- The walk in DRAINING passes to WALKING, or is not through with its drain (R86). -/
theorem State.passDrain_cases (s : State) :
    (∃ r, s.working = true ∧ s.engine.walk = some r ∧ (s.region r).sub = .draining ∧ s.drainOver r = true ∧
        s.passDrain = s.startWalking r) ∨
      (∀ r, s.engine.walk = some r → s.working = false ∨ (s.region r).sub ≠ .draining ∨ s.drainOver r = false) ∧
        s.passDrain = s := by
  unfold State.passDrain
  split
  · next r hw =>
    split_ifs with h
    · simp only [Bool.and_eq_true, beq_iff_eq] at h
      exact .inl ⟨r, h.1.1, hw, h.1.2, h.2, rfl⟩
    · refine .inr ⟨fun q hq => ?_, rfl⟩
      obtain rfl : r = q := by simpa [hw] using hq
      cases hs : s.working
      · exact .inl rfl
      · by_cases hd : (s.region r).sub = .draining
        · exact .inr (.inr (by simpa [hs, hd] using h))
        · exact .inr (.inl hd)
  · next hw => exact .inr ⟨fun q hq => (by simp [hw] at hq), rfl⟩

/-- The end of recovery starts its anchor, waits for the anchor write in progress, or has its anchor in progress (R134). -/
theorem State.endRecovery_cases (s : State) :
    s.log.anchor = none ∧ s.endRecovery = s.startAnchor .recovery ∨
      ∃ a, s.log.anchor = some a ∧ (a.purpose = .recovery ∧ s.endRecovery = s ∨
        a.purpose ≠ .recovery ∧ s.endRecovery = s.updLog fun l => { l with recoveryWanted := true }) := by
  unfold State.endRecovery
  split
  · next h => exact .inl ⟨h, rfl⟩
  · next a h =>
    split_ifs with hp
    · exact .inr ⟨a, h, .inl ⟨hp, rfl⟩⟩
    · exact .inr ⟨a, h, .inr ⟨hp, rfl⟩⟩

/-- Recovery ends where its conditions hold, and otherwise nothing happens (R130, R134). -/
theorem State.passRecovery_cases (s : State) :
    (s.recovered = true ∧ s.passRecovery = s.endRecovery) ∨ (s.recovered = false ∧ s.passRecovery = s) := by
  unfold State.passRecovery
  cases s.recovered
  · exact .inr ⟨rfl, rfl⟩
  · exact .inl ⟨rfl, rfl⟩

/-- SETTLING ends where its conditions hold, and otherwise nothing happens (R144). -/
theorem State.passSettling_cases (s : State) :
    (s.device = .quiescing ∧ s.powerFail.phase = .settling ∧ s.settled = true ∧ s.passSettling = s.endSettling) ∨
      ¬(s.device = .quiescing ∧ s.powerFail.phase = .settling ∧ s.settled = true) ∧ s.passSettling = s := by
  unfold State.passSettling
  split_ifs with h
  · exact .inl ⟨h.1, h.2.1, h.2.2, rfl⟩
  · exact .inr ⟨h, rfl⟩

end Sys2Proof.Machine
end

