-- ==== Sys2Proof/Laws/PerInstr.lean ====
section
/-! SUPPORT. A law of every command as syntax: the bytes of its frame are as many as its code's entry in Table 11-4 asks
for. -/

namespace Sys2Proof.Laws

/-- A link command's frame holds exactly the operand bytes its code takes (Table 11-4, R182, R185). -/
def FrameLength.Statement (c : Instr) : Prop :=
  ∀ code ops m, c.wf = true → frameBytes c = code :: ops → operandBytes code.toNat = some m → ops.length = m

theorem frameLength_event {c : Instr} (h : frameBytes c = []) : FrameLength.Statement c := by
  intro code ops m _ h'
  rw [h] at h'
  cases h'

theorem frameLength_command {c : Instr} (code : Byte) (ops : List Byte) (h : frameBytes c = code :: ops)
    (hm : operandBytes code.toNat = some ops.length) : FrameLength.Statement c := by
  intro code' ops' m _ h' hm'
  rw [h] at h'
  cases h'
  rw [hm] at hm'
  exact Option.some.inj hm'

theorem FrameLength.ident : Statement .ident :=
  frameLength_command _ _ rfl rfl

theorem FrameLength.readStatus : Statement .readStatus :=
  frameLength_command _ _ rfl rfl

theorem FrameLength.readLog : Statement .readLog :=
  frameLength_command _ _ rfl rfl

theorem FrameLength.readRegion (region : Byte) : Statement (.readRegion region) :=
  frameLength_command _ _ rfl rfl

theorem FrameLength.readParam (param : Byte) : Statement (.readParam param) :=
  frameLength_command _ _ rfl rfl

theorem FrameLength.readPending : Statement .readPending :=
  frameLength_command _ _ rfl rfl

theorem FrameLength.readFault : Statement .readFault :=
  frameLength_command _ _ rfl rfl

theorem FrameLength.claim : Statement .claim :=
  frameLength_command _ _ rfl rfl

theorem FrameLength.stage (region field : Byte) (value : Word32) : Statement (.stage region field value) :=
  frameLength_command _ _ rfl rfl

theorem FrameLength.applyNow (region : Byte) : Statement (.applyNow region) :=
  frameLength_command _ _ rfl rfl

theorem FrameLength.applyAtClose (region : Byte) : Statement (.applyAtClose region) :=
  frameLength_command _ _ rfl rfl

theorem FrameLength.applyAtBegin (region : Byte) : Statement (.applyAtBegin region) :=
  frameLength_command _ _ rfl rfl

theorem FrameLength.applyCancel (region : Byte) : Statement (.applyCancel region) :=
  frameLength_command _ _ rfl rfl

theorem FrameLength.beginTxn (region : Byte) : Statement (.beginTxn region) :=
  frameLength_command _ _ rfl rfl

theorem FrameLength.commit (region : Byte) : Statement (.commit region) :=
  frameLength_command _ _ rfl rfl

theorem FrameLength.abort (region : Byte) : Statement (.abort region) :=
  frameLength_command _ _ rfl rfl

theorem FrameLength.retry (region : Byte) : Statement (.retry region) :=
  frameLength_command _ _ rfl rfl

theorem FrameLength.format (base : BitVec 24) (units : BitVec 16) : Statement (.format base units) :=
  frameLength_command _ _ rfl rfl

theorem FrameLength.setParam (param : Byte) (value : BitVec 16) : Statement (.setParam param value) :=
  frameLength_command _ _ rfl rfl

theorem FrameLength.setPriority (source priority : Byte) : Statement (.setPriority source priority) :=
  frameLength_command _ _ rfl rfl

theorem FrameLength.setThreshold (threshold : Byte) : Statement (.setThreshold threshold) :=
  frameLength_command _ _ rfl rfl

theorem FrameLength.popFault : Statement .popFault :=
  frameLength_command _ _ rfl rfl

theorem FrameLength.dportClear : Statement .dportClear :=
  frameLength_command _ _ rfl rfl

theorem FrameLength.unknownCommand (code : Byte) (operands : List Byte) :
    Statement (.unknownCommand code operands) := by
  intro code' ops m hw h hm
  cases h
  simp only [Instr.wf, unknownCode, unknownPoint, Bool.or_eq_true, Bool.and_eq_true] at hw
  rcases hw with ⟨hn, -⟩ | hp
  · rw [hm] at hn
    cases hn
  · split at hp
    · rw [of_decide_eq_true (Bool.and_eq_true_iff.mp hp).1] at hm
      exact Option.some.inj hm
    · cases hp

theorem FrameLength.frameDiscard (received : List Byte) : Statement (.frameDiscard received) :=
  frameLength_event rfl

theorem FrameLength.resetAssert : Statement .resetAssert :=
  frameLength_event rfl

theorem FrameLength.resetRelease (msize : Fin 4) (selected : Bool) : Statement (.resetRelease msize selected) :=
  frameLength_event rfl

theorem FrameLength.firstIssueDelayExpiry : Statement .firstIssueDelayExpiry :=
  frameLength_event rfl

theorem FrameLength.powerFailWarning : Statement .powerFailWarning :=
  frameLength_event rfl

theorem FrameLength.upstreamRequest (request : HostRequest) : Statement (.upstreamRequest request) :=
  frameLength_event rfl

theorem FrameLength.entryStart (tag : HostTag) : Statement (.entryStart tag) :=
  frameLength_event rfl

theorem FrameLength.downstreamIssue : Statement .downstreamIssue :=
  frameLength_event rfl

theorem FrameLength.downstreamResponse (tag : DownTag) (ok : Bool) (data : Line) : Statement (.downstreamResponse tag ok data) :=
  frameLength_event rfl

theorem FrameLength.responseTimeout (tag : DownTag) : Statement (.responseTimeout tag) :=
  frameLength_event rfl

theorem FrameLength.tick : Statement .tick :=
  frameLength_event rfl

theorem FrameLength.ageExpiry (region : RegionId) : Statement (.ageExpiry region) :=
  frameLength_event rfl

theorem FrameLength.chooseNextWork : Statement .chooseNextWork :=
  frameLength_event rfl

theorem FrameLength.commitDrainComplete (region : RegionId) : Statement (.commitDrainComplete region) :=
  frameLength_event rfl

theorem FrameLength.walkStart : Statement .walkStart :=
  frameLength_event rfl

theorem FrameLength.walkDrainComplete : Statement .walkDrainComplete :=
  frameLength_event rfl

theorem FrameLength.formatAnchorWrites : Statement .formatAnchorWrites :=
  frameLength_event rfl

theorem FrameLength.recoveryEnd : Statement .recoveryEnd :=
  frameLength_event rfl

theorem FrameLength.settlingEnd : Statement .settlingEnd :=
  frameLength_event rfl

theorem FrameLength.frameEnd : Statement .frameEnd :=
  frameLength_event rfl

end Sys2Proof.Laws
end

