-- ==== Sys2Proof/Tests/Slice0.lean ====
section
/-! SUPPORT. Tests on small concrete states. Expected values come from the manual's tables and worked examples, or are
computed by hand from its rules. The theorems named `witness_<Name>` show states and operands that meet the hypotheses of
the statement `Obligations.<Name>`. -/

namespace Sys2Proof.Machine.Tests

open Sys2Proof Sys2Proof.Machine

/-! ## Checks that decide the laws on a concrete state -/

/-- A descriptor's ranges as one decidable proposition. -/
abbrev Fits (memory : Nat) (d : Descriptor) : Prop :=
  d.base % 32 = 0 ∧ d.base < memory ∧ 1 ≤ d.size ∧ d.size ≤ 65536 ∧ d.ageLimit ≤ 65535

theorem fits {memory : Nat} {d : Descriptor} (h : Fits memory d) : d.InRange memory :=
  ⟨h.1, h.2.1, h.2.2.1, h.2.2.2.1, h.2.2.2.2⟩

/-- The parameters' ranges as one decidable proposition. -/
abbrev ParamsFit (p : Params) : Prop :=
  1 ≤ p.tickPeriod ∧ p.tickPeriod ≤ 1024 ∧ p.retryLimit ≤ 7 ∧ p.anchorStride ≤ 65535 ∧ p.spaceWatermark ≤ 65535 ∧
    1 ≤ p.dto ∧ p.dto ≤ 255

/-- The ranges of a state as one decidable proposition. -/
abbrev Ranged (s : State) : Prop :=
  s.faults.length ≤ 4 ∧ s.table.length ≤ 16 ∧ (s.table.map Entry.tag).Nodup ∧ s.directory.length ≤ 256 ∧
    s.dport.share ≤ 4 ∧ (∀ r, (s.region r).age ≤ 65535) ∧ (∀ r, Fits s.memorySize (s.region r).live) ∧
    (∀ r, Fits s.memorySize (s.region r).staged) ∧ (∀ n : Source, s.notices.priority.get n ≤ 7) ∧
    s.notices.threshold ≤ 7 ∧ s.flag 0 = false ∧ ParamsFit s.params

theorem inRange {s : State} (h : Ranged s) : InRange s := by
  obtain ⟨h1, h2, h3, h4, h5, h6, h7, h8, h9, h10, h11, a, b, c, d, e, f, g⟩ := h
  exact ⟨h1, h2, h3, h4, h5, h6, fun r => fits (h7 r), fun r => fits (h8 r), h9, h10, h11, ⟨a, b, c, d, e, f, g⟩⟩

/-- The windows' law as one decidable proposition. -/
abbrev Apart (s : State) : Prop :=
  (∀ g ∈ s.log.geometry, g.base % 4096 = 0 ∧ g.size % 4096 = 0 ∧ 256 ≤ g.blocks ∧ g.blocks ≤ 65536 ∧
      g.base + g.size ≤ s.memorySize - 64) ∧
    (∀ r, (s.region r).live.enable = true → (s.region r).live.base + 32 * (s.region r).live.size ≤ s.memorySize - 64) ∧
    (∀ g ∈ s.log.geometry, ∀ r, (s.region r).live.enable = true →
      spansMeet (s.region r).live.base (32 * (s.region r).live.size) g.base g.size = false) ∧
    (∀ q r, q ≠ r → (s.region q).live.enable = true → (s.region r).live.enable = true →
      spansMeet (s.region q).live.base (32 * (s.region q).live.size) (s.region r).live.base
        (32 * (s.region r).live.size) = false) ∧
    (s.device = .start ∨ s.device = .scanning → ∀ r, (s.region r).live.enable = false ∧ (s.region r).staged.enable = false)

theorem apart {a la b lb : Nat} (h : spansMeet a la b lb = false) (x : Nat) (ha : a ≤ x ∧ x < a + la)
    (hb : b ≤ x ∧ x < b + lb) : False := by
  simp only [spansMeet, Bool.and_eq_false_iff, decide_eq_false_iff_not] at h
  omega

theorem windows {s : State} (h : Apart s) : WindowLaw s := by
  obtain ⟨h1, h2, h3, h4, h5⟩ := h
  refine ⟨fun g hg => h1 g hg, h2, ?_, ?_, h5⟩
  · intro r g hr hg addr ⟨ha, hb⟩
    simp only [Descriptor.holds, Geometry.holds, Bool.and_eq_true, decide_eq_true_eq] at ha hb
    exact apart (h3 g hg r hr) addr ha hb
  · intro q r hqr hq hr addr ⟨ha, hb⟩
    simp only [Descriptor.holds, Bool.and_eq_true, decide_eq_true_eq] at ha hb
    exact apart (h4 q r hqr hq hr) addr ha hb

theorem passes {s : State} {r : RegionId} (h : s.stagedPasses r = true) : PassesChecks s r := by
  intro he
  simp only [State.stagedPasses, he, Bool.not_true, Bool.false_or, Bool.and_eq_true, decide_eq_true_eq,
    List.all_eq_true, Bool.or_eq_true, beq_iff_eq, Bool.not_eq_true'] at h
  obtain ⟨⟨h1, h2⟩, h3⟩ := h
  refine ⟨h1, ?_, ?_⟩
  · intro g hg addr ⟨ha, hb⟩
    rw [hg] at h2
    simp only [Descriptor.holds, Geometry.holds, Bool.and_eq_true, decide_eq_true_eq] at ha hb
    exact apart (by simpa using h2) addr ha hb
  · intro q hq hlive addr ⟨ha, hb⟩
    simp only [Descriptor.holds, Bool.and_eq_true, decide_eq_true_eq] at ha hb
    rcases h3 q (mem_allRegions q) with (h | h) | h
    · exact hq h
    · rw [hlive] at h
      cases h
    · exact apart h addr ha hb

theorem notLog {s : State} {addr : Nat} (h : (s.inAnchors addr || s.inLogArea addr) = false) : ¬LogAddress s addr := by
  rintro (⟨h1, h2⟩ | ⟨g, hg, hh⟩)
  · simp [State.inAnchors, h1, h2] at h
  · simp [State.inLogArea, hg, hh] at h

theorem noQuarantine {s : State} (h : ∀ g, (s.tag g).isQuarantined = false) (g : DownTag) (a : Nat) :
    s.tag g ≠ .quarantined a := by
  intro hg
  have := h g
  rw [hg] at this
  cases this

/-! ## Small states -/

/-- The log of the worked example of chapter 2 (section 2.10): 256 blocks at 0x1F0000, region 5's transaction unresolved. -/
def ring : LogState :=
  { LogState.reset with
    geometry := some ⟨0x1F0000, 0x2000⟩, generation := 3, slot := some 1, anchorSeq := 9, head := 248, nextSeq := 1000,
    volatileTail := 236, tailSeq := 998, durableTail := 40, unresolved := 1,
    firstSeqs := (Vector.replicate 8 none).set 5 (some 998) }

/-- A descriptor of an enabled region. -/
def window (base size : Nat) : Descriptor := { Descriptor.zero with enable := true, base := base, size := size }

/-- The part in RUN with the log of section 2.10 and an empty downstream port. Region 0 has the 16 lines at 0, region 7 the 4
lines at 0x400, and region 1 has staged a window that meets region 0's. -/
def run : State :=
  let s := { State.reset with
    device := .run, issueAllowed := true, log := ring, dport := { State.reset.dport with anchorQueue := [] } }
  let s := s.updRegion 0 fun x => { x with live := window 0 16, staged := window 0 16, number := 4 }
  let s := s.updRegion 1 fun x => { x with staged := window 480 4 }
  let s := s.updRegion 5 fun x => { x with txn := .opened, records := 1, firstIndex := some 236, lastIndex := some 236 }
  s.updRegion 7 fun x => { x with live := window 0x400 4, staged := window 0x400 4 }

/-- `run` with regions 0 and 7 OPEN and no record yet. -/
def opened : State :=
  (run.updRegion 0 fun x => { x with txn := .opened }).updRegion 7 fun x => { x with txn := .opened, live :=
    { x.live with space := .fail } }

/-- A request entry of one word. -/
def entry (tag : HostTag) (op : Op) (addr : Nat) (st : EntryState) : Entry :=
  { tag := tag, op := op, addr := addr, count := 1, data := 5, strobes := 0xF, cls := none, handling := none, state := st }

/-- A state with a Request Table. -/
def withTable (s : State) (es : List Entry) : State := { s with table := es }

/-- A write of region `r`'s line at `addr` that waits for the Log Writer. -/
def firstWrite (tag : HostTag) (r : RegionId) (addr : Nat) : Entry :=
  { entry tag .write addr .waitLog with cls := some (.region r), handling := some .firstWrite }

/-- A state whose regions all have transaction state `x`. -/
def allTxn (s : State) (x : TxnState) : State :=
  allRegions.foldl (fun s r => s.updRegion r fun c => { c with txn := x }) s

/-- Every downstream tag quarantined. -/
def stalled : State :=
  { run with dport := { run.dport with tags := Vector.replicate 32 (.quarantined 0x400) } }

/-- The part in RUN but for the device state. -/
def inDevice (d : DeviceState) : State := run.setDevice d

/-- A request the builder has outstanding on tag 3. -/
def outstandingFor (o : Owner) (addr : Nat) : Tag := .outstanding o .logWriter .read addr 50 0 true

/-- The state a command leaves. -/
def after (c : Instr) (s : State) : State :=
  match exec c s with
  | .next t => t
  | _ => s

theorem run_free : LinkReady run := ⟨by decide, by decide, by decide⟩

theorem run_serving : Serving run := .inl (by decide)

theorem run_inRange : InRange run := inRange (by decide)

theorem run_windows : WindowLaw run := windows (by decide)

theorem opened_free : LinkReady opened := ⟨by decide, by decide, by decide⟩

theorem opened_serving : Serving opened := .inl (by decide)

/-! ## Well-formed terms -/

theorem test_known_code_is_no_unknown_command : (Instr.unknownCommand 0x06 []).wf = false := by decide

theorem test_unknown_code_has_no_operands : (Instr.unknownCommand 0x09 [1]).wf = false := by decide

theorem test_apply_with_a_known_point_is_no_unknown_command : (Instr.unknownCommand 0x11 [2, 3]).wf = false := by decide

theorem test_complete_frame_is_not_discarded : (Instr.frameDiscard [0x20, 0x02]).wf = false := by decide

theorem test_command_byte_alone_completes_a_read : (Instr.frameDiscard [0x02]).wf = false := by decide

theorem test_partial_frame_is_discarded : (Instr.frameDiscard [0x20]).wf = true := by decide

/-! ## Frames (Table 11-4, section 11.5), the CRC (R37) and stored layouts (Tables 11-10 to 11-12) -/

theorem test_frame_begin : decodeFrame [0x20, 0x02] = some (.beginTxn 2) := by decide

theorem test_frame_stage : decodeFrame [0x10, 1, 1, 0x00, 0x01, 0x20, 0x40] = some (.stage 1 1 0x12040) := by decide

theorem test_frame_apply : decodeFrame [0x11, 5, 2] = some (.applyAtBegin 5) := by decide

theorem test_frame_format : decodeFrame [0x30, 0x1F, 0x00, 0x00, 0x00, 0x02] = some (.format 0x1F0000 2) := by decide

theorem test_frame_set_param : decodeFrame [0x40, 2, 0x01, 0x00] = some (.setParam 2 256) := by decide

theorem test_frame_of_an_unlisted_code : decodeFrame [0x09] = some (.unknownCommand 0x09 []) := by decide

theorem test_frame_bytes_of_set_priority : frameBytes (.setPriority 27 1) = [0x41, 0x1B, 0x01] := by decide

/-- R37: the CRC of the ASCII digits 1 to 9 is 0xCBF43926. -/
theorem test_crc_check_value : crc32 9 0x393837363534333231 = 0xCBF43926 := by decide

/-- R195: the anchor marker appears as 0x31, 0x41, 0x4A, 0x52 at offsets 0 to 3; the base is at offset 8 (Table 11-12). -/
theorem test_anchor_bytes :
    let v := (anchorBlock 10 ⟨0x1F0000, 0x2000⟩ 3 236 998).toNat
    fieldAt v 0 1 = 0x31 ∧ fieldAt v 1 1 = 0x41 ∧ fieldAt v 2 1 = 0x4A ∧ fieldAt v 3 1 = 0x52 ∧ fieldAt v 4 4 = 10 ∧
      fieldAt v 10 1 = 0x1F ∧ fieldAt v 13 1 = 0x20 ∧ fieldAt v 16 4 = 3 ∧ fieldAt v 20 4 = 236 ∧ fieldAt v 24 4 = 998 := by
  decide

/-! ## Worked examples of the log (section 2.10) -/

theorem test_free_space : ring.free = 48 := by decide

theorem test_first_admission_wraps : ring.placement 10 = (⟨0, some (248, 1000)⟩, 1001) ∧ ring.headAfter 10 = 10 := by decide

theorem test_first_admission_is_granted : ring.admits true 8 = true := by decide

/-- Step 7: with 10 blocks free and U = 2 a record of four lines is not admitted. -/
theorem test_admission_fails_at_step_7 :
    let l := { ring with head := 30, unresolved := 2, volatileTail := 0, tailSeq := 1001, nextSeq := 1005 }
    l.free = 10 ∧ l.admits false 4 = false := by decide

/-- Step 4: region 5's COMMIT resolves its transaction, and the tail moves to region 0's first record. -/
theorem test_resolution_moves_the_tail :
    let l := { ring with head := 12, nextSeq := 1003, unresolved := 2, firstSeqs := ring.firstSeqs.set 0 (some 1001) }
    let s := ({ run with log := l, params := { run.params with spaceWatermark := 32 } }).updRegion 0
      fun x => { x with txn := .opened, records := 1, firstIndex := some 0, lastIndex := some 0 }
    (s.resolve 5).log.volatileTail = 0 ∧ (s.resolve 5).log.tailSeq = 1001 ∧ (s.resolve 5).log.unresolved = 1 ∧
      (s.resolve 5).log.free = 28 ∧ (s.resolve 5).log.anchor = none := by decide

/-! ## Worked examples of the port and the notices -/

/-- A port with the log writer's ten block writes waiting and a share count. -/
def sharing (share : Nat) (anchors : List DownRequest) : State :=
  { run with
    table := [entry 7 .write 0x100 .ready, entry 3 .write 0x80 .ready]
    dport := { run.dport with share := share, anchorQueue := anchors, logQueue := [writeBlock .logWriter 0x1F0000 1] } }

/-- Table 9-3, issue 3: the anchor class goes first and the count rises. -/
theorem test_anchor_class_first :
    (sharing 2 [writeBlock .logManager 0x1FFFC0 9]).issueNext.issued.map (fun x => (x.1, x.2.addr)) = [(0, 0x1FFFC0)] ∧
      (sharing 2 [writeBlock .logManager 0x1FFFC0 9]).issueNext.dport.share = 3 := by decide

/-- Table 9-3, issue 5: at a count of 4 the older host entry goes first and the count returns to 0. -/
theorem test_share_spent :
    (sharing 4 []).issueNext.issued.map (fun x => (x.1, x.2.addr)) = [(0, 0x100)] ∧
      (sharing 4 []).issueNext.dport.share = 0 ∧ (sharing 4 []).issueNext.dport.logQueue.length = 1 := by decide

/-- Table 9-3, issue 11: with the host class empty the count goes to 0. -/
theorem test_share_without_host : ({ sharing 2 [] with table := [] }).issueNext.dport.share = 0 := by decide

/-- The notices of section 10.6 before step 8: sources 7, 11, 25, 26 and 27 pending, with their priorities. -/
def noticed : State :=
  { run with notices :=
    { flags := ((((Notices.reset.flags.set 7 true).set 11 true).set 25 true).set 26 true).set 27 true
      priority := ((((Notices.reset.priority.set 7 4).set 11 4).set 25 5).set 26 7).set 27 1
      threshold := 2 } }

/-- Section 10.6, steps 8, 12 and 14. -/
theorem test_claims :
    claimed noticed.notices = some 26 ∧
      claimed ((noticed.clearNotice 26).clearNotice 25).notices = some 7 ∧
      claimed ((((noticed.clearNotice 26).clearNotice 25).clearNotice 7).clearNotice 11).notices = none := by decide

theorem test_alert : noticed.alert = true ∧
  ((((noticed.clearNotice 26).clearNotice 25).clearNotice 7).clearNotice 11).alert = false := by
  decide

/-- Table 8-1: the reason codes, and R149: only NONE makes a response OK. -/
theorem test_reason_codes :
    [Reason.none, .protocol, .logArea, .refused, .noSpace, .aborted, .regionFault, .logFault, .media,
      .power].map Reason.code =
        [0, 1, 2, 3, 4, 5, 6, 7, 8, 9] ∧
      Response.status ⟨9, .none, []⟩ = .ok ∧ Response.status ⟨9, .media, []⟩ = .err := by decide

/-- Section 11.5: READ_FAULT's data for one LOG_WRITE entry. -/
def faulted : State := { run with faults := [⟨.logWrite, some 1, none, some 4410, 3, false⟩] }

theorem test_read_fault_data :
    faulted.faultData = [0x01, 0x01, 0x01, 0xFF, 0xFF, 0xFF, 0xFF, 0x00, 0x00, 0x11, 0x3A, 0x03, 0x00] := by decide

/-- Section 11.5: SDO of the READ_FAULT frame: zeros to the turnaround, the result at byte 2, the data from byte 3. -/
theorem test_read_fault_frame :
    let t := after .readFault faulted
    t.sdo 1 = some 0 ∧ t.sdo 2 = some 0 ∧ t.sdo 3 = some 1 ∧ t.sdo 13 = some 0x3A ∧ t.sdo 16 = some 0 := by decide

/-- Table 11-6: device state RUN, no phase, one entry WAIT_LOG, engine IDLE. -/
theorem test_status_data :
    (withTable run [firstWrite 2 0 0]).statusData = [3, 0, 1, 0, 0, 1, 0, 0, 0, 0, 0, 0, 0xFF, 0, 0, 0, 0] := by decide

/-- Table 11-8: the log of section 2.10. -/
theorem test_log_data :
    run.logData =
      [1, 0, 0x1F, 0, 0, 0, 0, 0x20, 0, 0, 0, 1, 0, 0, 0, 0, 3, 0, 0, 3, 0xE8, 0, 0, 0, 248, 0, 0, 0, 236, 0, 0, 3, 0xE6,
       0, 0, 0, 40, 1, 0, 0, 0, 9, 1, 0, 0xFF, 0xFF, 0xFF, 0xFF, 0, 0xFF, 0, 0, 0, 0, 0, 48] := by decide

/-- Table 11-7: region 5, OPEN with one record at 236. -/
theorem test_region_data :
    run.regionData 5 =
      [0, 0, 0, 0, 0, 0, 0, 0, 0, 0, 0, 0, 0, 0, 0, 0, 0, 0, 0, 0, 0, 0, 0, 1, 0, 0, 0, 1, 0, 0, 0, 1, 0, 0, 0, 236, 0, 0,
       0, 236, 0, 0, 0, 0, 0, 0] := by decide

/-- Table 11-7: BASE, and SIZE as the number of lines minus one. -/
theorem test_descriptor_bytes : (window 0x400 4).bytes = [1, 0x00, 0x04, 0x00, 0, 3, 0, 0, 0, 0, 0] := by decide

/-! ## States and operands that meet the hypotheses of the statements -/

theorem witness_LinkFrameSpellsItsCommand :
    (Instr.stage 7 6 1).wf = true ∧ frameBytes (.stage 7 6 1) ≠ [] ∧ (Instr.unknownCommand 0x11 [8, 4]).wf = true ∧
      (Instr.unknownCommand 0xFF []).wf = true ∧ frameBytes (.unknownCommand 0xFF []) ≠ [] := by decide

theorem witness_ResetSilencesAndHoldsThePart :
    (after .resetAssert run).inReset = true ∧ Instr.tick ≠ .resetAssert ∧ ∀ m b, Instr.tick ≠ .resetRelease m b :=
  ⟨by decide, by decide, fun _ _ => by simp⟩

theorem witness_FirstIssueWaitsForTheDelay : run.inReset = false ∧ State.reset.issueAllowed = false := by decide

theorem witness_IdentReportsTheDevice : LinkReady State.reset := ⟨by decide, by decide, by decide⟩

theorem witness_ReadStatusReportsThePart :
    InRange run ∧ LinkReady run ∧ PowerLaw run ∧ run.device ≠ .quiescing ∧ run.device ≠ .halted ∧ InRange stalled ∧
      LinkReady stalled ∧ ∀ g, (stalled.tag g).isQuarantined = true :=
  ⟨run_inRange, run_free, ⟨by decide, by decide, by decide, by decide, by decide⟩, by decide, by decide,
    inRange (by decide), ⟨by decide, by decide, by decide⟩, by decide⟩

/-- An anchor write in progress and a deferred admission of eight lines. -/
def anchoring : State :=
  (run.startAnchor .reclaim).updLog fun l => { l with deferred := some ⟨7, 8⟩ }

theorem witness_ReadLogReportsTheLog :
    LinkReady anchoring ∧ anchoring.log.geometry = some ⟨0x1F0000, 0x2000⟩ ∧ anchoring.log.anchor ≠ none ∧
      anchoring.log.deferred = some ⟨7, 8⟩ ∧ LinkReady State.reset ∧ State.reset.log.geometry = none ∧
      State.reset.log.anchor = none ∧ State.reset.log.deferred = none :=
  ⟨⟨by decide, by decide, by decide⟩, by decide, by decide, by decide, ⟨by decide, by decide, by decide⟩, by decide,
    by decide, by decide⟩

theorem witness_ReadRegionReportsTheContext :
    InRange run ∧ LinkReady run ∧ Serving run ∧ (7 : Byte).toNat = (7 : RegionId).val :=
  ⟨run_inRange, run_free, run_serving, by decide⟩

theorem witness_ReadParamReportsTheParameter :
    InRange run ∧ LinkReady run ∧ run.params.dto = 50 ∧ 4 < (5 : Byte).toNat := ⟨run_inRange, run_free, by decide, by decide⟩

theorem witness_ReadPendingReportsTheFlags :
    InRange noticed ∧ LinkReady noticed ∧ noticed.inReset = false ∧ Signalling noticed 26 ∧ ¬Signalling noticed 27 :=
  ⟨inRange (by decide), ⟨by decide, by decide, by decide⟩, by decide, ⟨by decide, by decide⟩,
    fun h => absurd h.2 (by decide)⟩

theorem witness_ReadFaultReportsTheOldestEntry :
    InRange run ∧ LinkReady run ∧ run.faults = [] ∧ InRange faulted ∧ LinkReady faulted ∧ faulted.faults ≠ [] :=
  ⟨run_inRange, run_free, by decide, inRange (by decide), ⟨by decide, by decide, by decide⟩, by decide⟩

/-- Sources 7 and 11 signal with one priority, and 7 is the lower. -/
def tied : State := (noticed.clearNotice 26).clearNotice 25

theorem witness_ClaimTakesTheGreatestPriority :
    LinkReady tied ∧ Signalling tied 7 ∧
      (∀ m : Source, m ≠ 0 → tied.flag m = true ∧ tied.notices.threshold < tied.notices.priority.get m →
        tied.notices.priority.get m < tied.notices.priority.get 7 ∨
          tied.notices.priority.get m = tied.notices.priority.get 7 ∧ 7 ≤ m) ∧
      LinkReady run ∧ (∀ n : Source, n ≠ 0 → ¬(run.flag n = true ∧ run.notices.threshold < run.notices.priority.get n)) :=
  ⟨⟨by decide, by decide, by decide⟩, ⟨by decide, by decide⟩, by decide, run_free, by decide⟩

theorem not_serving_reset : ¬Serving State.reset := by rintro (h | h | h) <;> cases h

/-- A command and a region above 7 that the link turns away. -/
theorem turned_away : LinkReady State.reset ∧ ¬Serving State.reset ∧ 7 < (8 : Byte).toNat :=
  ⟨⟨by decide, by decide, by decide⟩, not_serving_reset, by decide⟩

theorem witness_LinkRefusesByDeviceStateAndRegion :
    gatedLength (.readRegion 0) = some 46 ∧ gatedLength .dportClear = some 0 ∧ LinkReady State.reset ∧ ¬Serving State.reset ∧
      regionOperand (.retry 8) = some (8, 0) ∧ 7 < (8 : Byte).toNat ∧ LinkReady run ∧ Serving run :=
  ⟨by decide, by decide, ⟨by decide, by decide, by decide⟩, not_serving_reset, by decide, by decide, run_free, run_serving⟩

theorem witness_UnknownCommandIsRefused :
    operandBytes (0x09 : Byte).toNat = none ∧ LinkReady run ∧ Serving run ∧ 3 < (4 : Byte).toNat ∧ (7 : Byte).toNat ≤ 7 ∧
      7 < (8 : Byte).toNat ∧ LinkReady State.reset ∧ ¬Serving State.reset :=
  ⟨by decide, run_free, run_serving, by decide, by decide, by decide, ⟨by decide, by decide, by decide⟩, not_serving_reset⟩

theorem witness_FrameCarriesOneCommandAndItsResult :
    run.inReset = false ∧ incompleteFrame [] = true ∧ incompleteFrame [0x11, 0] = true ∧ run.link.frame = none ∧
      (Instr.setThreshold 1).wf = true ∧ frameBytes (.setThreshold 1) ≠ [] ∧ LinkReady run ∧
      run.selectLink.link.frame = some .begun ∧ Frame.begun.answer = none ∧ run.selectLink.inReset = false ∧
      (after .ident run).link.frame = some (.taken .ident .ok [0x20, 0x80, 1, 0]) ∧ (after .ident run).inReset = false :=
  ⟨by decide, by decide, by decide, by decide, by decide, by decide, run_free, by decide, by decide, by decide, by decide,
    by decide⟩

/-- The state that clocking bits into the link leaves. -/
def clocked (bits : List Bool) (s : State) : State :=
  match s.clockBits bits with
  | .next t => t
  | _ => s

/-- Section 11.5: SET_THRESHOLD's two bytes, most significant bits first, take it on the sixteenth edge and not before. -/
theorem test_clocked_frame :
    let bits := [false, true, false, false, false, false, true, false] ++ [false, false, false, false, false, false, true]
    (clocked bits run.selectLink).notices.threshold = 0 ∧
      (clocked (bits ++ [true]) run.selectLink).notices.threshold = 3 ∧
      (clocked (bits ++ [true]) run.selectLink).link.frame = some (.taken (.setThreshold 3) .ok []) := by decide

/-- Table 11-1: BEGIN's frame after its command byte is among the operand bytes, with SDO at zeros. -/
theorem test_open_frame_shifts_zeros :
    let t := clocked [false, false, true, false, false, false, false, false] run.selectLink
    t.link.frame = some ⟨[0x20], [], 8, none⟩ ∧ t.link.frame.map Frame.phase = some .operands ∧ t.sdo 1 = some 0 ∧
      t.sdoLevel = some false ∧ t.linkFree = false := by decide

theorem witness_StageWritesOneStagedField :
    LinkReady run ∧ Serving run ∧ 7 < (8 : Byte).toNat ∧ (7 : Byte).toNat = (7 : RegionId).val ∧
      (0x1FFFE0 : Word32).toNat % 32 = 0 ∧ (0x1FFFE0 : Word32).toNat < run.memorySize ∧ (0xFFFF : Word32).toNat ≤ 0xFFFF ∧
      6 < (7 : Byte).toNat ∧ 1 < (2 : Word32).toNat ∧ (0x1FFFE1 : Word32).toNat % 32 ≠ 0 ∧
      run.memorySize ≤ (0x200000 : Word32).toNat ∧ 0xFFFF < (0x10000 : Word32).toNat ∧ 2 < (3 : Word32).toNat :=
  ⟨run_free, run_serving, by decide, by decide, by decide, by decide, by decide, by decide, by decide, by decide, by decide,
    by decide, by decide⟩

theorem region_1_fails : ¬PassesChecks run 1 := fun h =>
  (h (by decide)).2.2 0 (by decide) (by decide) 480 ⟨by decide, by decide⟩

theorem witness_ApplyNowMakesTheStagedCopyLive :
    InRange run ∧ WindowLaw run ∧ LinkReady run ∧ Serving run ∧ (run.region 5).txn ≠ .idle ∧ (run.region 1).txn = .idle ∧
      ¬PassesChecks run 1 ∧ (run.region 7).txn = .idle ∧ PassesChecks run 7 ∧ (7 : Byte).toNat = (7 : RegionId).val :=
  ⟨run_inRange, run_windows, run_free, run_serving, by decide, by decide, region_1_fails, by decide, passes (by decide),
    by decide⟩

theorem witness_ApplyCanBeDeferredOrWithdrawn :
    InRange run ∧ WindowLaw run ∧ LinkReady run ∧ Serving run ∧ (run.region 5).txn ≠ .idle ∧ (run.region 1).txn = .idle ∧
      ¬PassesChecks run 1 ∧ (run.region 0).txn = .idle ∧ PassesChecks run 0 ∧ (0 : Byte).toNat = (0 : RegionId).val :=
  ⟨run_inRange, run_windows, run_free, run_serving, by decide, by decide, region_1_fails, by decide, passes (by decide),
    by decide⟩

/-- `run` with an AT_BEGIN apply pending in regions 0, 1 and 2. -/
def awaiting : State := ((run.setApply 0 .atBegin).setApply 1 .atBegin).setApply 2 .atBegin

theorem witness_BeginOpensATransaction :
    InRange awaiting ∧ WindowLaw awaiting ∧ LinkReady awaiting ∧ awaiting.device = .run ∧ (awaiting.region 5).txn ≠ .idle ∧
      ((awaiting.region 3).txn = .idle ∧ (awaiting.region 3).pendingApply ≠ .atBegin ∧
        (awaiting.region 3).live.enable = false) ∧
      ((awaiting.region 7).txn = .idle ∧ (awaiting.region 7).pendingApply ≠ .atBegin ∧
        (awaiting.region 7).live.enable = true) ∧
      ((awaiting.region 1).pendingApply = .atBegin ∧ (awaiting.region 1).txn = .idle ∧ ¬PassesChecks awaiting 1) ∧
      ((awaiting.region 2).pendingApply = .atBegin ∧ PassesChecks awaiting 2 ∧ (awaiting.region 2).staged.enable = false) ∧
      ((awaiting.region 0).pendingApply = .atBegin ∧ PassesChecks awaiting 0 ∧ (awaiting.region 0).staged.enable = true) ∧
      InRange (inDevice .nolog) ∧ WindowLaw (inDevice .nolog) ∧ LinkReady (inDevice .nolog) ∧
      (inDevice .nolog).device = .nolog ∧ (inDevice .logFault).device = .logFault ∧
      (LinkReady State.reset ∧ ¬Serving State.reset ∧ 7 < (8 : Byte).toNat) :=
  ⟨inRange (by decide), windows (by decide), ⟨by decide, by decide, by decide⟩, by decide, by decide,
    ⟨by decide, by decide, by decide⟩, ⟨by decide, by decide, by decide⟩,
    ⟨by decide, by decide, fun h => (h (by decide)).2.2 0 (by decide) (by decide) 480 ⟨by decide, by decide⟩⟩,
    ⟨by decide, passes (by decide), by decide⟩, ⟨by decide, passes (by decide), by decide⟩, inRange (by decide),
    windows (by decide), ⟨by decide, by decide, by decide⟩, by decide, by decide, turned_away⟩

/-- `opened` with one unfinished write in region 0's window and two records in region 7. -/
def committed : State :=
  (withTable opened [entry 4 .write 0x1FC .ready, entry 5 .write 0x200 .ready]).updRegion 7 fun x => { x with records := 2 }

/-- The drain set a COMMIT of a region without a HELD group fixes. -/
def drainOf (s : State) (r : RegionId) : List HostTag :=
  (s.table.filter fun e => e.op = .write ∧ (s.region r).live.holds e.addr = true).map Entry.tag

/-- `committed` with a HELD group of region 0 for the line 0x20, and entries of other groups and regions in the directory. -/
def waiting : State :=
  let s := { committed with
    table := { firstWrite 2 0 0x20 with state := .waitSpace } :: committed.table
    directory := [⟨0, 0x20, false⟩, ⟨0, 0x40, true⟩, ⟨0, 0x60, false⟩, ⟨7, 0x400, false⟩] }
  s.updWriter fun w => { w with held := w.held.set 0 (some ⟨⟨0, 4, [2], [⟨0x20, true, 0, none⟩]⟩, false⟩) }

theorem witness_CommitFixesItsDrainSet :
    LinkReady run ∧ Serving run ∧ (run.region 0).txn ≠ .opened ∧ LinkReady opened ∧ Serving opened ∧
      (opened.region 0).txn = .opened ∧ opened.writer.held.get 0 = none ∧ drainOf opened 0 = [] ∧
      (opened.region 0).records = 0 ∧ drainOf committed 0 = [4] ∧ drainOf committed 7 = [] ∧
      (committed.region 7).records = 2 ∧ (committed.region 7).txn = .opened ∧ LinkReady committed ∧ Serving committed ∧
      (∃ h, waiting.writer.held.get 0 = some h ∧ h.group.members = [2] ∧ h.group.tracked = [0x20]) ∧
      (waiting.region 0).txn = .opened ∧ LinkReady waiting ∧ Serving waiting :=
  ⟨run_free, run_serving, by decide, opened_free, opened_serving, by decide, by decide, by decide, by decide, by decide,
    by decide, by decide, by decide, ⟨by decide, by decide, by decide⟩, .inl (by decide), ⟨_, rfl, by decide, by decide⟩,
    by decide, ⟨by decide, by decide, by decide⟩, .inl (by decide)⟩

theorem test_commit_waits_for_its_drain_set :
    ((after (.commit 0) committed).region 0).txn = .committing ∧ ((after (.commit 0) committed).region 0).drain = [4] ∧
      ((after (.commit 0) opened).region 0).txn = .idle ∧ ((after (.commit 0) opened).region 0).number = 5 := by decide

/-- R18: the HELD group's write is answered NO_SPACE and leaves the drain set, and its PENDING entry goes. -/
theorem test_commit_discards_the_held_group :
    let t := after (.commit 0) waiting
    t.responses = [⟨2, .noSpace, []⟩] ∧ (t.region 0).drain = [4] ∧ t.writer.held.get 0 = none ∧
      t.directory = [⟨0, 0x40, true⟩, ⟨0, 0x60, false⟩, ⟨7, 0x400, false⟩] := by decide

/-- `opened` with a group of region 0 in the builder, its old line outstanding, and a DEFERRED group of region 7. -/
def building : State :=
  let s := withTable opened [firstWrite 2 0 0x20, firstWrite 3 7 0x400, firstWrite 4 0 0x40]
  let record : LogRecord := ⟨.undo, 0, true, false, 1000, 4, none, [0x20], 3, 248⟩
  let s := s.updWriter fun w =>
    { w with builder := some ⟨record, ⟨248, none⟩, some ⟨0, 4, [2], [⟨0x20, true, 1, none⟩]⟩, .reading⟩
             deferred := some ⟨7, 1, [3], [⟨0x400, true, 0, none⟩]⟩ }
  s.updLog fun l => { l with deferred := some ⟨7, 1⟩ }

theorem witness_AbortEndsOrQueuesTheTransaction :
    LinkReady committed ∧ Serving committed ∧ (committed.region 0).records = 0 ∧ committed.hasBusyGroup 0 = false ∧
      (committed.region 0).txn = .opened ∧ (committed.region 7).txn = .opened ∧ (committed.region 7).records ≠ 0 ∧
      (committed.region 1).txn ≠ .opened ∧ LinkReady building ∧ Serving building ∧ (building.region 0).txn = .opened ∧
      building.hasBusyGroup 0 = true ∧ (∃ d, building.writer.deferred = some d ∧ d.region = 7) ∧
      (building.region 7).txn = .opened :=
  ⟨⟨by decide, by decide, by decide⟩, .inl (by decide), by decide, by decide, by decide, by decide, by decide, by decide,
    ⟨by decide, by decide, by decide⟩, .inl (by decide), by decide, by decide, ⟨_, rfl, by decide⟩, by decide⟩

/-- R22, R79, R80: only the write that the admitted group does not hold waits for the region; the DEFERRED group goes. R85:
the walk starts on the event, and drains until the admitted group's record is done. -/
theorem test_abort_moves_waiting_writes :
    let t := after (.abort 0) building
    t.table.map Entry.state = [.waitLog, .waitLog, .waitRegion] ∧ t.writer.deferred = building.writer.deferred ∧
      t.engine.walk = some 0 ∧ t.engine.queue = [] ∧ (t.region 0).sub = .draining ∧
      (after (.abort 7) building).writer.deferred = none ∧ (after (.abort 7) building).log.deferred = none ∧
      ((after (.abort 7) building).region 7).txn = .idle := by decide

theorem witness_RetryQueuesAFaultedRegion :
    LinkReady (allTxn run .faulted) ∧ (allTxn run .faulted).device = .run ∧ ((allTxn run .faulted).region 7).txn = .faulted ∧
      LinkReady run ∧ (run.region 7).txn ≠ .faulted ∧ LinkReady (inDevice .nolog) ∧ (inDevice .nolog).device = .nolog ∧
      (LinkReady State.reset ∧ ¬Serving State.reset ∧ 7 < (8 : Byte).toNat) :=
  ⟨⟨by decide, by decide, by decide⟩, by decide, by decide, run_free, by decide, ⟨by decide, by decide, by decide⟩,
    by decide, turned_away⟩

/-- `run` with every region IDLE. -/
def quiet : State := allTxn run .idle

theorem witness_FormatChecksInOrder :
    InRange run ∧ LinkReady run ∧ Serving run ∧ (0x1F0001 : BitVec 24).toNat % 4096 ≠ 0 ∧
      (0x1FD000 : BitVec 24).toNat % 4096 = 0 ∧ 2 ≤ (2 : BitVec 16).toNat ∧ (2 : BitVec 16).toNat ≤ 512 ∧
      (run.device ≠ .logFault ∧ (run.region 5).txn ≠ .idle ∧ (run.region 5).txn ≠ .faulted) ∧
      (InRange quiet ∧ LinkReady quiet ∧ Serving quiet ∧ quiet.log.anchor = none ∧ ∀ r, (quiet.region r).txn = .idle) ∧
      (quiet.startAnchor .reclaim).log.anchor ≠ none ∧ quiet.memorySize - 64 < 0x1FE000 + 4096 * 2 ∧
      ((quiet.region 0).live.holds 0 = true ∧ (⟨0, 8192⟩ : Geometry).holds 0 = true) ∧
      quiet.areaMeets 0x1FD000 8192 = false :=
  ⟨run_inRange, run_free, run_serving, by decide, by decide, by decide, by decide, by decide,
    ⟨inRange (by decide), ⟨by decide, by decide, by decide⟩, .inl (by decide), by decide, by decide⟩, by decide, by decide,
    by decide, by decide⟩

theorem witness_FormatMakesANewLog :
    LinkReady quiet ∧ Serving quiet ∧ quiet.log.anchor = none ∧ (0x1FD000 : BitVec 24).toNat % 4096 = 0 ∧
      quiet.areaMeets (0x1FD000 : BitVec 24).toNat (4096 * (2 : BitVec 16).toNat) = false ∧
      ∀ r, (quiet.region r).txn = .idle ∨ (quiet.region r).txn = .faulted :=
  ⟨⟨by decide, by decide, by decide⟩, .inl (by decide), by decide, by decide, by decide, by decide⟩

theorem test_format_takes_the_next_generation :
    (after (.format 0x1F0000 2) quiet).log.generation = 4 ∧ (after (.format 0x1F0000 2) quiet).device = .formatting := by
  decide

theorem witness_SetParamWritesWithinRange :
    LinkReady run ∧ Serving run ∧ (1024 : BitVec 16).toNat ≤ 1024 ∧ 1024 < (1025 : BitVec 16).toNat ∧
      (7 : BitVec 16).toNat ≤ 7 ∧ 7 < (8 : BitVec 16).toNat ∧ (255 : BitVec 16).toNat ≤ 255 ∧
      255 < (256 : BitVec 16).toNat ∧ 4 < (5 : Byte).toNat ∧
      (LinkReady State.reset ∧ ¬Serving State.reset ∧ 7 < (8 : Byte).toNat) :=
  ⟨run_free, run_serving, by decide, by decide, by decide, by decide, by decide, by decide, by decide, turned_away⟩

theorem witness_PriorityAndThresholdAreSetWithinRange :
    LinkReady run ∧ Serving run ∧ (27 : Byte).toNat = (27 : Source).val ∧ (27 : Source) ≠ 0 ∧ (7 : Byte).toNat ≤ 7 ∧
      27 < (28 : Byte).toNat ∧ 7 < (8 : Byte).toNat := ⟨run_free, run_serving, by decide, by decide, by decide, by decide,
        by decide⟩

theorem witness_PopFaultRemovesTheOldestEntry :
    LinkReady run ∧ Serving run ∧ run.faults = [] ∧ LinkReady faulted ∧ Serving faulted ∧ faulted.faults ≠ [] ∧
      (LinkReady State.reset ∧ ¬Serving State.reset ∧ 7 < (8 : Byte).toNat) :=
  ⟨run_free, run_serving, by decide, ⟨by decide, by decide, by decide⟩, .inl (by decide), by decide, turned_away⟩

theorem witness_DportClearEmptiesTheQuarantine :
    LinkReady stalled ∧ Serving stalled ∧ (stalled.tag 31).isQuarantined = true ∧
      (LinkReady State.reset ∧ ¬Serving State.reset ∧ 7 < (8 : Byte).toNat) :=
  ⟨⟨by decide, by decide, by decide⟩, .inl (by decide), by decide, turned_away⟩

/-- A host request for the last word of a line below region 0's end. -/
def request (addr : BitVec 24) (count : Nat) : HostRequest :=
  { tag := 9, op := .write, addr := addr, count := count, data := 7, strobes := 0xF }

/-- `run` with tag 9 in the table. -/
def holding : State := withTable run [entry 9 .read 0x40 .ready]

/-- A younger entry and an entry that has started, both behind an entry for one line; tag 2 quarantined in line 0x400. -/
def lined : State :=
  { withTable run [entry 1 .write 0x40 .issued, entry 2 .read 0x5C .waitOrder, entry 3 .read 0x400 .waitOrder] with
    dport := { run.dport with tags := run.dport.tags.set 2 (.quarantined 0x41C) } }

theorem witness_UpstreamRequestIsTakenInOrder :
    run.inReset = false ∧ Serving run ∧ run.table.length < 16 ∧ (∀ e ∈ run.table, e.tag ≠ (request 0x1FFC 1).tag) ∧
      WellFormedRequest run (request 0x1FFC 1) ∧ ¬WellFormedRequest run (request 0x1FFC 2) ∧
      ¬WellFormedRequest run (request 0x200000 1) ∧ Serving holding ∧ (∃ e ∈ holding.table, e.tag = (request 0 1).tag) ∧
      ¬(State.reset.inReset = false ∧ Serving State.reset ∧ State.reset.table.length < 16) :=
  ⟨by decide, run_serving, by decide, by decide, by unfold WellFormedRequest; decide, by unfold WellFormedRequest; decide,
    by unfold WellFormedRequest; decide, .inl (by decide), by decide, fun h => not_serving_reset h.2.1⟩

/-- R151, R155: a request for a clear line starts on the event that takes it (Table 8-5: OUTSIDE is PASS in region 0). -/
theorem test_taken_request_starts_at_once :
    (after (.upstreamRequest (request 0x1FC 1)) run).table.map (fun e => (e.cls, e.state, e.handling)) =
        [(some (.region 0), .ready, some .passThrough)] ∧
      (after (.upstreamRequest (request 0x40 1)) lined).table.map Entry.state =
        [.issued, .waitOrder, .waitOrder, .waitOrder] := by decide

theorem nothingDue {s : State} (ht : s.table = []) (hq : s.engine.queue = []) (hw : s.engine.walk = none)
    (hd : s.device = .run) : NothingDue s where
  starts older e younger h := by simp [ht] at h
  walks _ _ := hq
  drains r h := by simp [hw] at h
  recovery _ h := by simp [hd] at h
  settling _ h := by simp [hd] at h

theorem witness_EntryWaitsForItsLine :
    InRange lined ∧
      Stands lined [] (entry 1 .write 0x40 .issued) [entry 2 .read 0x5C .waitOrder, entry 3 .read 0x400 .waitOrder] ∧
      Stands lined [entry 1 .write 0x40 .issued] (entry 2 .read 0x5C .waitOrder) [entry 3 .read 0x400 .waitOrder] ∧
      ¬LineClear lined [entry 1 .write 0x40 .issued] (entry 2 .read 0x5C .waitOrder) ∧
      ¬LineClear lined [entry 1 .write 0x40 .issued, entry 2 .read 0x5C .waitOrder] (entry 3 .read 0x400 .waitOrder) ∧
      (run.inReset = false ∧ run.log.geometry ≠ none ∧ run.engine.walk = none ∧ NothingDue run) :=
  ⟨inRange (by decide), rfl, rfl, fun h => h.1 (entry 1 .write 0x40 .issued) (by decide) (by decide),
    fun h => h.2 2 0x41C (by decide) (by decide),
    by decide, by decide, by decide, nothingDue (by decide) (by decide) (by decide) (by decide)⟩

/-- R155: the late response that frees the quarantined tag starts the entry it held; the entry behind an older one waits. -/
theorem test_cleared_line_starts_its_entry :
    (after (.downstreamResponse 2 true 0) lined).table.map Entry.state = [.issued, .waitOrder, .ready] := by decide

theorem inRegion {s : State} {addr : Nat} {r : RegionId} (h : (s.inAnchors addr || s.inLogArea addr) = false)
    (he : (s.region r).live.enable = true) (hw : (s.region r).live.holds addr = true)
    (hl : ∀ q, q < r → ¬((s.region q).live.enable = true ∧ (s.region q).live.holds addr = true)) :
    RegionAddress s addr r := ⟨notLog h, he, hw, hl⟩

/-- One entry about to start, alone in the table of a state. -/
def starting (s : State) (op : Op) (addr : Nat) : State := withTable s [entry 6 op addr .waitOrder]

theorem starts_alone (s : State) (op : Op) (addr : Nat) : Stands (starting s op addr) [] (entry 6 op addr .waitOrder) [] := rfl

/-- `run` with region 0 OPEN, a DURABLE entry for its last line, and region 0's WRITE of tag 6 in its drain set. -/
def capturing : State :=
  { opened.updRegion 0 fun x => { x with drain := [6] } with directory := [⟨0, 0x1E0, true⟩] }

theorem witness_EntryStartsByItsClass :
    (InRange (starting opened .write 0x1FC) ∧ (starting opened .write 0x1FC).inReset = false ∧
        LineClear (starting opened .write 0x1FC) [] (entry 6 .write 0x1FC .waitOrder) ∧
        NoneStarts (starting opened .write 0x1FC) []) ∧
      RegionAddress (starting opened .write 0x1FC) 0x1FC 0 ∧ ((starting opened .write 0x1FC).region 0).txn = .opened ∧
      ¬Captured (starting opened .write 0x1FC) 0 0x1FC ∧ Captured (starting capturing .write 0x1FC) 0 0x1FC ∧
      (¬LogAddress (starting run .write 0x200) 0x200 ∧ ∀ r, ¬RegionAddress (starting run .write 0x200) 0x200 r) ∧
      LogAddress (starting run .read 0x1FFFC0) 0x1FFFC0 ∧ LogAddress (starting run .read 0x1F1FFC) 0x1F1FFC ∧
      RegionAddress (starting (inDevice .logFault) .write 0) 0 0 ∧ RegionAddress (starting run .read 0x400) 0x400 7 ∧
      RegionAddress (starting (allTxn capturing .committing) .write 0x1FC) 0x1FC 0 ∧
      (entry 6 .write 0x1FC .waitOrder).tag ∈ ((starting (allTxn capturing .committing) .write 0x1FC).region 0).drain ∧
      RegionAddress (starting (allTxn run .rollingBack) .read 0) 0 0 ∧
      RegionAddress (starting (allTxn run .faulted) .read 0) 0 0 := by
  refine ⟨⟨inRange (by decide), by decide, ⟨by simp, fun g a h => absurd h (noQuarantine (by decide) g a)⟩,
    by simp [NoneStarts]⟩,
    inRegion (by decide) (by decide) (by decide) (by decide), by decide,
    ?_, ⟨⟨0, 0x1E0, true⟩, by decide, by decide, by decide, by decide⟩, ⟨notLog (by decide), ?_⟩, .inl (by decide),
    .inr ⟨⟨0x1F0000, 0x2000⟩, by decide, by decide⟩, inRegion (by decide) (by decide) (by decide) (by decide),
    inRegion (by decide) (by decide) (by decide) (by decide), inRegion (by decide) (by decide) (by decide) (by decide),
    by decide, inRegion (by decide) (by decide) (by decide) (by decide),
    inRegion (by decide) (by decide) (by decide) (by decide)⟩
  · rintro ⟨d, hd, -⟩
    exact absurd hd (by decide +revert)
  · rintro r ⟨-, he, hw, -⟩
    revert r
    decide

theorem witness_ArbiterIssuesItsChoice :
    InRange (sharing 3 []) ∧ MayIssue (sharing 3 []) ∧ LowestFree (sharing 3 []) 0 ∧ HostWaits (sharing 3 []) ∧
      ChosenFromQueue (sharing 3 []) .logWriter (writeBlock .logWriter 0x1F0000 1) ∧
      (MayIssue (sharing 4 []) ∧ LowestFree (sharing 4 []) 0 ∧ (sharing 4 []).dport.share = 4 ∧
        Stands (sharing 4 []) [] (entry 7 .write 0x100 .ready) [entry 3 .write 0x80 .ready]) ∧
      ¬MayIssue State.reset ∧ (∀ g, stalled.tag g ≠ .free) ∧
      (¬HostWaits run ∧ run.dport.anchorQueue = [] ∧ run.dport.logQueue = [] ∧ run.dport.rollQueue = []) := by
  refine ⟨inRange (by decide), ⟨by decide, by decide, by decide⟩, ⟨by decide, by decide⟩,
    ⟨entry 7 .write 0x100 .ready, by decide, by decide⟩, ⟨fun h => absurd h.1 (by decide), by decide, by decide⟩,
    ⟨⟨by decide, by decide, by decide⟩, ⟨by decide, by decide⟩, by decide, rfl⟩, ?_, by decide, ?_, by decide, by decide,
    by decide⟩
  · rintro ⟨-, h, -⟩
    exact absurd h (by decide)
  · rintro ⟨e, he, -⟩
    exact absurd he (by simp [run, State.updRegion, State.reset, State.afterReset])

/-- Tag 3 outstanding for the ISSUED request of tag 1, tag 4 quarantined. -/
def answering : State :=
  { withTable run [entry 1 .write 0x40 .issued] with
    dport := { run.dport with
      tags := (run.dport.tags.set 3 (.outstanding (.entry 1) .host .write 0x40 50 0 true)).set 4 (.quarantined 0x400) } }

theorem witness_ResponseGoesToItsOwner :
    answering.inReset = false ∧ answering.tag 0 = .free ∧ answering.tag 4 = .quarantined 0x400 ∧ InRange answering ∧
      Stands answering [] (entry 1 .write 0x40 .issued) [] ∧
      answering.tag 3 = .outstanding (.entry (entry 1 .write 0x40 .issued).tag) .host .write 0x40 50 0 true ∧
      MediaFault (entry 1 .write 0x40 .issued) ⟨.passMedia, none, some 0x40, none, 1, false⟩ :=
  ⟨by decide, by decide, by decide, inRange (by decide), rfl, by decide, rfl⟩

/-- `answering` with every other tag quarantined. -/
def lastTag : State :=
  { answering with dport := { stalled.dport with tags := stalled.dport.tags.set 3 (answering.tag 3) } }

theorem witness_TimeoutQuarantinesTheTag :
    (answering.tag 4).isOutstanding = false ∧ InRange answering ∧ Stands answering [] (entry 1 .write 0x40 .issued) [] ∧
      answering.device ≠ .quiescing ∧ answering.device ≠ .halted ∧ (answering.tag 0).isQuarantined = false ∧
      InRange lastTag ∧ Stands lastTag [] (entry 1 .write 0x40 .issued) [] ∧ lastTag.device ≠ .quiescing ∧
      lastTag.tag 3 = .outstanding (.entry (entry 1 .write 0x40 .issued).tag) .host .write 0x40 50 0 true ∧
      ∀ g', g' ≠ 3 → (lastTag.tag g').isQuarantined = true :=
  ⟨by decide, inRange (by decide), rfl, by decide, by decide, by decide, inRange (by decide), rfl, by decide, by decide,
    by decide⟩

/-- Region 7 due to expire, with an AGE_ACTION. -/
def expiring (action : AgeAction) : State :=
  opened.updRegion 7 fun x => { x with expiryDue := true, live := { x.live with ageLimit := 1, ageAction := action } }

/-- Regions 0 to 3 one tick from their limits, the first with NOTIFY, the others with ABORT and 0, 1 and 2 records, region 4
far from its limit, region 7 at the top count. -/
def aging : State :=
  let at9 (a : AgeAction) (n : Nat) (x : Region) : Region :=
    { x with txn := .opened, age := 9, records := n, live := { x.live with ageLimit := 10, ageAction := a } }
  (((((opened.updRegion 0 (at9 .notify 0)).updRegion 1 (at9 .abort 0)).updRegion 2 (at9 .abort 1)).updRegion 3
    (at9 .abort 2)).updRegion 4 fun x => { at9 .abort 1 x with age := 8 }).updRegion 7 fun x => { x with age := 65535 }

theorem witness_TickAdvancesTheAgeCounts :
    aging.inReset = false ∧ aging.device = .run ∧ (∀ r : RegionId, r < 5 → (aging.region r).txn = .opened) ∧
      (∀ r : RegionId, r < 4 → (aging.region r).age + 1 = (aging.region r).live.ageLimit) ∧
      (aging.region 0).live.ageAction = .notify ∧ (∀ r : RegionId, 0 < r ∧ r < 4 → (aging.region r).live.ageAction = .abort) ∧
      (aging.region 1).records = 0 ∧ aging.hasBusyGroup 1 = false ∧ (aging.region 2).records ≠ 0 ∧
      (aging.region 4).age + 1 ≠ (aging.region 4).live.ageLimit ∧ (aging.region 4).expiryDue = false ∧
      ¬(aging.region 7).age < 65535 ∧ (expiring .abort).inReset = false ∧ ((expiring .abort).region 7).expiryDue = true ∧
      (inDevice .halted).inReset = false ∧ (inDevice .halted).device ≠ .run := by decide

/-- R27: a count advances, or stays at its top. -/
theorem test_tick_advances_the_counts :
    let t := after .tick aging
    (t.region 0).age = 10 ∧ (t.region 4).age = 9 ∧ (t.region 7).age = 65535 ∧ t.timebase.elapsed = 100 := by decide

set_option maxRecDepth 8000 in
/-- R28, R29, R84, R85: on the tick, NOTIFY leaves region 0 OPEN, ABORT ends region 1 without records, and regions 2 and 3
join the rollback queue in that order, where the walk of the first starts on the same event. -/
theorem test_tick_takes_its_expiries :
    let t := after .tick aging
    t.flag (ageExpired 0) = true ∧ t.flag (ageExpired 3) = true ∧ t.flag (ageExpired 4) = false ∧
      (t.region 0).txn = .opened ∧ (t.region 1).txn = .idle ∧ t.flag (rollbackDone 1) = true ∧
      t.flag (rollbackDone 2) = false ∧ t.engine.walk = some 2 ∧ t.engine.queue = [3] ∧ (t.region 4).txn = .opened := by
  decide

theorem witness_ExpiryNotifiesOrAborts :
    (expiring .abort).inReset = false ∧ (expiring .abort).device = .run ∧
      (((expiring .abort).region 7).txn = .opened ∧ ((expiring .abort).region 7).expiryDue = true) ∧
      (∀ q : RegionId, q < 7 → ((expiring .abort).region q).expiryDue = false) ∧
      ((expiring .abort).region 7).live.ageAction = .abort ∧ ((expiring .notify).region 7).live.ageAction = .notify ∧
      ((expiring .notify).region 7).expiryDue = true ∧ ((expiring .abort).region 0).expiryDue = false ∧
      ((expiring .abort).region 7).records = 0 ∧ (expiring .abort).hasBusyGroup 7 = false := by decide

theorem witness_PowerFailWarningStartsQuiesce :
    InRange (inDevice .halted) ∧ (inDevice .halted).inReset = false ∧ (inDevice .halted).device = .halted ∧ InRange run ∧
      run.device ≠ .quiescing ∧ run.device ≠ .halted ∧ run.portStalled = false ∧ InRange stalled ∧
      stalled.portStalled = true ∧ stalled.device ≠ .quiescing ∧ stalled.device ≠ .halted :=
  ⟨inRange (by decide), by decide, by decide, run_inRange, by decide, by decide, by decide, inRange (by decide), by decide,
    by decide, by decide⟩

theorem test_power_fail_answers_waiting_entries :
    let t := after .powerFailWarning (withTable run [firstWrite 2 0 0, entry 1 .write 0x40 .issued])
    t.device = .quiescing ∧ t.powerFail.phase = .settling ∧ t.table.map Entry.tag = [1] ∧
      t.responses = [⟨2, .power, []⟩] := by decide

/-- Region 5's COMMIT record is due, with the log of section 2.10; at `head` 255 it needs a WRAP marker. -/
def closing (head : Nat) : State :=
  (run.updWriter fun w => { w with closing := [⟨5, 1, .commit, 236, false⟩] }).updLog fun l => { l with head := head }

theorem witness_ClosingRequestIsPlacedAndWritten :
    (closing 248).inReset = false ∧ (closing 248).device = .run ∧ (closing 248).writer.builder = none ∧
      (closing 248).writer.granted = none ∧ (closing 248).writer.closing = ⟨5, 1, .commit, 236, false⟩ :: [] ∧
      (closing 248).log.geometry = some ⟨0x1F0000, 0x2000⟩ ∧ (closing 254).log.head < Geometry.blocks ⟨0x1F0000, 0x2000⟩ ∧
      (closing 255).log.head < Geometry.blocks ⟨0x1F0000, 0x2000⟩ ∧ 2 ≤ Geometry.blocks ⟨0x1F0000, 0x2000⟩ := by decide

/-- R40: a two-block record fits at 254 and leaves the head at 0, and at 255 a marker goes first. -/
theorem test_closing_placement :
    (after .chooseNextWork (closing 254)).log.head = 0 ∧ (after .chooseNextWork (closing 254)).log.nextSeq = 1001 ∧
      (after .chooseNextWork (closing 254)).dport.logQueue.map DownRequest.addr = [0x1F1FC0, 0x1F1FE0] ∧
      (after .chooseNextWork (closing 255)).log.head = 2 ∧ (after .chooseNextWork (closing 255)).log.nextSeq = 1002 ∧
      (after .chooseNextWork (closing 255)).dport.logQueue.map DownRequest.addr = [0x1F1FE0] := by decide

/-- Two first writes of region 0 wait for the Log Writer. -/
def grouping : State := withTable opened [firstWrite 2 0 0x20, firstWrite 8 0 0x40]

theorem witness_GroupIsTakenAndGranted :
    grouping.inReset = false ∧ grouping.device = .run ∧ grouping.writer.builder = none ∧ grouping.writer.granted = none ∧
      grouping.writer.closing = [] ∧ grouping.writer.deferred = none ∧ InRange grouping ∧
      grouping.serveOrder.find? grouping.eligible = some 0 ∧ grouping.writer.held.get 0 = none ∧
      grouping.log.geometry = some ⟨0x1F0000, 0x2000⟩ ∧ grouping.log.head < Geometry.blocks ⟨0x1F0000, 0x2000⟩ ∧
      10 ≤ Geometry.blocks ⟨0x1F0000, 0x2000⟩ ∧
      grouping.log.admits (decide ((grouping.region 0).records = 0)) ((grouping.untaken 0).take 8).length = true :=
  ⟨by decide, by decide, by decide, by decide, by decide, by decide, inRange (by decide), by decide, by decide, by decide,
    by decide, by decide, by decide⟩

theorem test_group_reads_old_lines :
    (after .chooseNextWork grouping).dport.logQueue.map DownRequest.addr = [0x20, 0x40] ∧
      (after .chooseNextWork grouping).directory = [⟨0, 0x20, false⟩, ⟨0, 0x40, false⟩] ∧
      ((after .chooseNextWork grouping).region 0).firstIndex = some 248 ∧
        (after .chooseNextWork grouping).log.head = 252 := by
  decide

/-- A HELD group of region 0, retry-due, in a log without the space for its record. -/
def refused (txn : TxnState) (space : SpacePolicy) : State :=
  let s := withTable opened [{ firstWrite 2 0 0x20 with state := .waitSpace }]
  let s := s.updRegion 0 fun x => { x with txn := txn, live := { x.live with space := space } }
  let s := s.updWriter fun w =>
    { w with held := w.held.set 0 (some ⟨⟨0, 4, [2], [⟨0x20, true, 0, none⟩]⟩, true⟩) }
  s.updLog fun l => { l with head := 35, volatileTail := 40 }

/-- An untaken first write of region 0 in a log without the space for its record. -/
def crowded : State :=
  (withTable opened [firstWrite 2 0 0x20]).updLog fun l => { l with head := 35, volatileTail := 40 }

/-- `refused` with its group DEFERRED instead, behind the anchor write whose last read-back is outstanding on tag 3. -/
def behindAnchor (txn : TxnState) (space : SpacePolicy) : State :=
  let s := (refused txn space).updWriter fun w =>
    { w with held := w.held.set 0 none, deferred := some ⟨0, 4, [2], [⟨0x20, true, 0, none⟩]⟩ }
  let s := s.updLog fun l =>
    { l with deferred := some ⟨0, 1⟩, durableTail := 36,
             anchor := some ⟨.reclaim, 0, 10, 40, 1000, ⟨[(0x1FFFC0, 7)], 1, true, 1, false⟩⟩ }
  { withTable s [firstWrite 2 0 0x20] with
    dport := { s.dport with tags := s.dport.tags.set 3 (.outstanding .logManager .anchor .read 0x1FFFC0 50 0 true) } }

theorem witness_RefusedGroupFollowsTheSpacePolicy :
    (∀ txn ∈ [TxnState.opened, .committing], ∀ space ∈ [SpacePolicy.wait, .fail, .abort],
      let s := refused txn space
      s.inReset = false ∧ s.device = .run ∧ s.writer.builder = none ∧ s.writer.granted = none ∧ s.writer.closing = [] ∧
        s.writer.deferred = none ∧ s.serveOrder.find? s.eligible = some 0 ∧
        s.writer.held.get 0 = some ⟨⟨0, 4, [2], [⟨0x20, true, 0, none⟩]⟩, true⟩ ∧
        (s.region 0).txn = txn ∧ (s.region 0).live.space = space ∧ s.log.anchor = none ∧
        s.log.volatileTail = s.log.durableTail ∧ (s.region 0).records = 0 ∧
        s.log.admits true 1 = false) ∧
      (let s := (refused .opened .wait).updRegion 0 fun x => { x with records := 1, firstIndex := some 40 }
       s.serveOrder.find? s.eligible = some 0 ∧ (s.region 0).firstIndex = some s.log.volatileTail ∧
        s.log.admits false 1 = false) ∧
      (crowded.inReset = false ∧ crowded.device = .run ∧ crowded.writer.builder = none ∧ crowded.writer.granted = none ∧
        crowded.writer.closing = [] ∧ crowded.writer.deferred = none ∧ InRange crowded ∧
        crowded.serveOrder.find? crowded.eligible = some 0 ∧ crowded.writer.held.get 0 = none ∧
        crowded.log.admits (decide ((crowded.region 0).records = 0)) ((crowded.untaken 0).take 8).length = false ∧
        crowded.log.anchor = none ∧ crowded.log.volatileTail = crowded.log.durableTail) ∧
      (∃ a grp, VerifiesAnchor (behindAnchor .committing .abort) 3 7 a ∧ a.purpose = .reclaim ∧
        (behindAnchor .committing .abort).writer.deferred = some grp ∧ (behindAnchor .committing .abort).device = .run ∧
        ((behindAnchor .committing .abort).anchored a).log.admits
          (decide (((behindAnchor .committing .abort).region grp.region).records = 0)) grp.lines.length = false ∧
        (behindAnchor .committing .abort).log.volatileTail = a.tail) :=
  ⟨by decide, by decide, ⟨by decide, by decide, by decide, by decide, by decide, by decide, inRange (by decide), by decide,
    by decide, by decide, by decide, by decide⟩,
    _, _, ⟨rfl, rfl, rfl, rfl, 0x1FFFC0, _, _, _, _, rfl, by decide⟩, rfl, rfl, by decide, by decide, by decide⟩

/-- R49, R19: when the anchor reclaims too little, a DEFERRED drain write is answered NO_SPACE and its commit goes on, and an
OPEN region's group under WAIT becomes HELD. -/
theorem test_deferred_admission_refused :
    let commits := after (.downstreamResponse 3 true 7) (behindAnchor .committing .abort)
    let waits := after (.downstreamResponse 3 true 7) (behindAnchor .opened .wait)
    commits.responses = [⟨2, .noSpace, []⟩] ∧ (commits.region 0).txn = .committing ∧ commits.writer.deferred = none ∧
      commits.log.durableTail = 40 ∧ commits.log.slot = some 0 ∧ waits.table.map Entry.state = [.waitSpace] ∧
      (waits.writer.held.get 0).isSome = true ∧ waits.log.deferred = none := by decide


/-- The record of region 0's group is being verified at ring index 248: the last read-back or write, on tag 3. -/
def verifying (readBack : Bool) (attempts : Nat) : State :=
  let s := withTable opened [firstWrite 2 0 0x20]
  let record : LogRecord := ⟨.undo, 0, true, false, 1000, 4, none, [0x20], 3, 248⟩
  let u : VerifiedUnit := ⟨[(0x1F1F00, 1), (0x1F1F20, 2), (0x1F1F40, 3)], attempts, readBack, 1, false⟩
  let s := s.updWriter fun w =>
    { w with builder := some ⟨record, ⟨248, none⟩, some ⟨0, 4, [2], [⟨0x20, true, 1, some 3⟩]⟩, .writing u⟩ }
  { s with
    directory := [⟨0, 0x20, false⟩]
    dport := { s.dport with tags := s.dport.tags.set 3 (outstandingFor .logWriter 0x1F1F40) } }

/-- Region 5's closing record is being verified: its last read-back is on tag 3, and region 7 is queued for its walk. -/
def finishing (kind : RecordKind) : State :=
  let s := run.updRegion 5 fun x => if kind = .commit then { x with txn := .committing, recordPhase := true }
    else { x with txn := .rollingBack, sub := .closing }
  let s := s.updRegion 7 fun x => { x with txn := .rollingBack, sub := .queued, records := 1, lastIndex := some 0 }
  let record : LogRecord := ⟨kind, 5, false, false, 1000, 1, none, [], 3, 236⟩
  let s := s.updWriter fun w =>
    { w with builder := some ⟨record, ⟨248, none⟩, none, .writing ⟨[(0x1F1F00, 1), (0x1F1F20, 2)], 1, true, 1, false⟩⟩ }
  let s := s.updEngine fun e => { e with queue := [7], walk := if kind = .commit then none else some 5 }
  { s with dport := { s.dport with tags := s.dport.tags.set 3 (outstandingFor .logWriter 0x1F1F20) } }

theorem witness_VerifiedRecordReleasesItsGroup :
    (verifying true 1).inReset = false ∧ (verifying true 1).device = .run ∧
      (verifying true 1).tag 3 = .outstanding .logWriter .logWriter .read 0x1F1F40 50 0 true ∧
      (∃ b grp u, (verifying true 1).writer.builder = some b ∧ b.group = some grp ∧ b.stage = .writing u ∧
        u.readBack = true ∧ u.left = 1 ∧ u.failed = false ∧ (0x1F1F40, (3 : Line)) ∈ u.blocks) ∧
      (∀ kind ∈ [RecordKind.commit, .abort], (finishing kind).inReset = false ∧ (finishing kind).device = .run ∧
        (finishing kind).tag 3 = .outstanding .logWriter .logWriter .read 0x1F1F20 50 0 true ∧
        ((finishing kind).region 5).records ≠ 0 ∧ (finishing kind).log.geometry ≠ none) ∧
      (∃ b u, (finishing .commit).writer.builder = some b ∧ b.group = none ∧ b.record.kind = .commit ∧ b.record.region = 5 ∧
        b.stage = .writing u ∧ u.readBack = true ∧ u.left = 1 ∧ u.failed = false ∧ (0x1F1F20, (2 : Line)) ∈ u.blocks) ∧
      (∃ b u, (finishing .abort).writer.builder = some b ∧ b.group = none ∧ b.record.kind = .abort ∧ b.record.region = 5 ∧
        b.stage = .writing u ∧ u.readBack = true ∧ u.left = 1 ∧ u.failed = false ∧ (0x1F1F20, (2 : Line)) ∈ u.blocks) :=
  ⟨by decide, by decide, by decide, ⟨_, _, _, rfl, rfl, rfl, rfl, rfl, rfl, by decide⟩, by decide,
    ⟨_, _, rfl, rfl, rfl, rfl, rfl, rfl, rfl, rfl, by decide⟩, ⟨_, _, rfl, rfl, rfl, rfl, rfl, rfl, rfl, rfl, by decide⟩⟩

theorem test_verified_record_releases_its_write :
    let t := after (.downstreamResponse 3 true 3) (verifying true 1)
    t.directory = [⟨0, 0x20, true⟩] ∧ t.writer.builder = none ∧
      t.table.map (fun e => (e.state, e.handling)) = [(.ready, some .inPlace)] := by decide

/-- R43, R44, R21, R94: the only unresolved transaction ends, so that U is 0 and the volatile tail is the head; R85: the next
walk is started on the event. -/
theorem test_verified_closing_record_ends_its_transaction :
    ∀ kind ∈ [RecordKind.commit, .abort], let t := after (.downstreamResponse 3 true 2) (finishing kind)
      (t.region 5).txn = .idle ∧ (t.region 5).number = 2 ∧ t.log.unresolved = 0 ∧ t.log.volatileTail = 248 ∧
        t.log.tailSeq = 1000 ∧ t.flag (commitDone 5) = (kind == .commit) ∧ t.flag (rollbackDone 5) = (kind == .abort) ∧
        t.engine.walk = some 7 ∧ t.engine.queue = [] := by decide

theorem witness_FailedRecordIsRewrittenOrStopsTheLog :
    (verifying false 3).inReset = false ∧ (verifying false 3).device = .run ∧
      (verifying false 3).tag 3 = .outstanding .logWriter .logWriter .read 0x1F1F40 50 0 true ∧
      (∃ b u, (verifying false 3).writer.builder = some b ∧ b.stage = .writing u ∧ u.left = 1 ∧
        u.attempts - 1 < (verifying false 3).params.retryLimit) ∧
      (∃ b u, (verifying false 4).writer.builder = some b ∧ b.stage = .writing u ∧ u.left = 1 ∧
        (verifying false 4).params.retryLimit ≤ u.attempts - 1) ∧
      ∀ r, ((verifying false 4).region r).pendingApply ≠ .atClose :=
  ⟨by decide, by decide, by decide, ⟨_, _, rfl, rfl, rfl, by decide⟩, ⟨_, _, rfl, rfl, rfl, by decide⟩, by decide⟩

/-- R103: with RETRY_LIMIT 3 the third attempt is followed by a fourth, and the fourth is the last. -/
theorem test_attempts :
    (after (.downstreamResponse 3 false 0) (verifying false 3)).dport.logQueue.map DownRequest.addr =
        [0x1F1F00, 0x1F1F20, 0x1F1F40] ∧
      (after (.downstreamResponse 3 false 0) (verifying false 4)).device = .logFault ∧
      (after (.downstreamResponse 3 false 0) (verifying false 4)).faults = [⟨.logWrite, some 0, none, some 1000, 4,
        false⟩] := by
  decide

/-- Region 5 is COMMITTING and its drain set is empty. -/
def draining (records : Nat) : State := run.updRegion 5 fun x => { x with txn := .committing, records := records }

theorem witness_CommitDrainBringsTheRecordPhase :
    (draining 1).inReset = false ∧ (draining 1).device = .run ∧ ((draining 1).region 5).txn = .committing ∧
      ((draining 1).region 5).drain = [] ∧ ((draining 1).region 5).recordPhase = false ∧
        ((draining 1).region 5).records ≠ 0 ∧
      ((draining 0).region 5).records = 0 ∧ (run.region 5).txn ≠ .committing := by decide

/-- Region 5 is queued for its walk; its window holds the line at 0x600 when `write` is there. -/
def queued (es : List Entry) : State :=
  let s := (withTable run es).updRegion 5 fun x => { x with txn := .rollingBack, sub := .queued, live := window 0x600 1 }
  s.updEngine fun e => { e with queue := [5, 7] }

/-- Region 5's walk is in DRAINING with an empty drain set. -/
def walking : State :=
  (queued []).updRegion 5 (fun x => { x with sub := .draining }) |>.updEngine
    fun e => { e with queue := [7], walk := some 5, index := some 236 }

theorem witness_WalkStartsAndDrains :
    WalkMayStart (queued []) ∧ (queued []).engine.queue = 5 :: [7] ∧ ((queued []).region 5).lastIndex = some 236 ∧
      ¬WindowQuarantined (queued []) 5 ∧ WalkMayStart (queued [entry 1 .read 0x61C .issued]) ∧
      ¬WalkMayStart walking ∧ walking.inReset = false ∧ walking.device = .run ∧ walking.engine.walk = some 5 ∧
      walking.engine.index = some 236 ∧ (walking.region 5).sub = .draining ∧ walking.engine.drain = [] ∧
      ¬WindowQuarantined walking 5 := by
  refine ⟨⟨by decide, by decide, by decide⟩, by decide, by decide, ?_, ⟨by decide, by decide, by decide⟩, ?_, by decide,
    by decide, by decide, by decide, by decide, by decide, ?_⟩
  · rintro ⟨-, g, a, hg, -⟩
    exact noQuarantine (by decide) g a hg
  · rintro ⟨-, -, h⟩
    cases h
  · rintro ⟨-, g, a, hg, -⟩
    exact noQuarantine (by decide) g a hg

theorem test_walk_drains_then_reads :
    (after .walkStart (queued [])).dport.rollQueue.map DownRequest.addr = [0x1F1D80, 0x1F1DA0] ∧
      ((after .walkStart (queued [])).region 5).sub = .walking ∧
      (after .walkStart (queued [entry 1 .read 0x61C .issued])).engine.drain = [1] ∧
      ((after .walkStart (queued [entry 1 .read 0x61C .issued])).region 5).sub = .draining := by decide

/-- Region 5's walk restores line `i` of a record of two lines; its last read-back is on tag 3. -/
def restoring (i flags attempts : Nat) : State :=
  let h : Header :=
    ⟨1, 5, 2, flags, 1000, 4, 200, [0x600, 0x620] ++ List.replicate 6 0xFFFFFFFF, 3, 100, 0, true⟩
  let s := (walking.updRegion 5 fun x => { x with sub := .walking }).updEngine fun e =>
    { e with header := some h, buffer := [7, 9], lineIndex := some i,
             restore := some ⟨[(0x620, 9)], attempts, true, 1, false⟩ }
  { s with dport := { s.dport with tags := s.dport.tags.set 3 (outstandingFor .rollback 0x620) } }

/-- The two header blocks of region 5's only record, by Table 11-10: UNDO, FIRST, sequence 998, number 1, the line 0x600 with
old contents 7, generation 3, first index 236; both CRCs were computed outside the model. -/
def block5 : Fin 2 → Line
  | 0 => 0xffffffffffffffffffffffff00000600ffffffff00000001000003e601010501
  | 1 => 0x816b548da19f4738000000ec00000003ffffffffffffffffffffffffffffffff

/-- Region 5's walk reads its record: the first header block is in, and the second, read `n` times, is on tag 3. -/
def readingHeader (n : Nat) : State :=
  let s := (walking.updRegion 5 fun x => { x with sub := .walking }).updEngine fun e =>
    { e with blocks := [⟨1, some (block5 0)⟩, ⟨n, none⟩] }
  { s with dport := { s.dport with tags := s.dport.tags.set 3 (outstandingFor .rollback 0x1F1DA0) } }

/-- Its data block is asked for, on tag 3. -/
def readingData : State :=
  let s := (readingHeader 1).updEngine fun e =>
    { e with header := some (readHeader (block5 0) (block5 1)),
             blocks := [⟨1, some (block5 0)⟩, ⟨1, some (block5 1)⟩, ⟨1, none⟩] }
  { s with dport := { s.dport with tags := s.dport.tags.set 3 (outstandingFor .rollback 0x1F1DC0) } }

set_option exponentiation.threshold 600 in
set_option maxRecDepth 8000 in
theorem passesCheck5 : PassesCheck (readingHeader 1) 5 236 (readHeader (block5 0) (block5 1)) where
  crc := by decide
  identity := by decide
  generation := by decide
  fit := by decide
  lines := by decide
  chain := by decide
  first := by decide
  later := by decide
  count := by decide

set_option exponentiation.threshold 600 in
set_option maxRecDepth 8000 in
theorem witness_RestoredLineLeadsTheWalkOn :
    (restoring 1 0 1).inReset = false ∧ (restoring 1 0 1).device = .run ∧
      (restoring 1 0 1).tag 3 = .outstanding .rollback .logWriter .read 0x620 50 0 true ∧
      (restoring 1 0 1).engine.walk = some 5 ∧ (restoring 1 0 1).engine.index = some 236 ∧
      (restoring 1 0 1).engine.lineIndex = some 1 ∧
      (∃ h u, (restoring 1 0 1).engine.header = some h ∧ (restoring 1 0 1).engine.restore = some u ∧ u.left = 1 ∧
        u.readBack = true ∧ u.failed = false ∧ (0x620, (9 : Line)) ∈ u.blocks) ∧
      (∃ h, (restoring 0 0 1).engine.header = some h ∧ h.first = false) ∧
      (∃ h, (restoring 0 1 1).engine.header = some h ∧ h.first = true) ∧
      (∃ u, (restoring 1 0 4).engine.restore = some u ∧ (restoring 1 0 4).params.retryLimit ≤ u.attempts - 1) ∧
      (∀ n ∈ [1, 4], (readingHeader n).inReset = false ∧ (readingHeader n).device = .run ∧
        (readingHeader n).tag 3 = .outstanding .rollback .logWriter .read 0x1F1DA0 50 0 true ∧
        (readingHeader n).engine.walk = some 5 ∧ (readingHeader n).engine.index = some 236 ∧
        (readingHeader n).engine.header = none ∧ 2 ≤ (readingHeader n).log.ring ∧
        0x1F1DA0 = (readingHeader n).blockAddr ((236 + 1) % (readingHeader n).log.ring)) ∧
      PassesCheck (readingHeader 1) 5 236 (readHeader (block5 0) (block5 1)) ∧
      ¬PassesCheck (readingHeader 1) 5 236 (readHeader (block5 0) 0) ∧ 1 - 1 < (readingHeader 1).params.retryLimit ∧
      (readingHeader 4).params.retryLimit ≤ 4 - 1 ∧
      (readingData.tag 3 = .outstanding .rollback .logWriter .read 0x1F1DC0 50 0 true ∧ readingData.engine.restore = none ∧
        readingData.engine.header = some (readHeader (block5 0) (block5 1)) ∧
        readingData.engine.blocks = [⟨1, some (block5 0)⟩, ⟨1, some (block5 1)⟩] ++ [⟨1, none⟩] ∧
        (readHeader (block5 0) (block5 1)).count = 1 ∧ 236 + 2 + 1 ≤ readingData.log.ring ∧
        0x1F1DC0 = readingData.blockAddr ((236 + (1 + 1)) % readingData.log.ring) ∧
        dataCrc ([] ++ [7]) = (readHeader (block5 0) (block5 1)).dataCrc ∧
        dataCrc ([] ++ [8]) ≠ (readHeader (block5 0) (block5 1)).dataCrc) :=
  ⟨by decide, by decide, by decide, by decide, by decide, by decide, ⟨_, _, rfl, rfl, rfl, rfl, rfl, by decide⟩,
    ⟨_, rfl, by decide⟩, ⟨_, rfl, by decide⟩, ⟨_, rfl, by decide⟩, by decide,
    passesCheck5, fun h => absurd h.crc (by decide), by decide, by decide,
    ⟨by decide, by decide, rfl, rfl, by decide, by decide, by decide, by decide, by decide⟩⟩

theorem test_walk_moves_on :
    let next := after (.downstreamResponse 3 true 9) (restoring 1 0 1)
    let earlier := after (.downstreamResponse 3 true 9) (restoring 0 0 1)
    let closes := after (.downstreamResponse 3 true 9) (restoring 0 1 1)
    let fails := after (.downstreamResponse 3 false 0) (restoring 1 0 4)
    next.dport.rollQueue.map (fun q => (q.addr, q.data)) = [(0x600, 7)] ∧ earlier.engine.index = some 200 ∧
      (closes.region 5).sub = .closing ∧ closes.writer.closing.map ClosingRequest.kind = [.abort] ∧
      (fails.region 5).txn = .faulted ∧ fails.faults.map FaultEntry.addr = [some 0x620] := by decide

set_option exponentiation.threshold 600 in
set_option maxRecDepth 8000 in
/-- R88 to R90, R95: a record that passes has its data block read and then its line written; bad data fails the walk. -/
theorem test_record_is_checked :
    let reads := after (.downstreamResponse 3 true (block5 1)) (readingHeader 1)
    let writes := after (.downstreamResponse 3 true 7) readingData
    let fails := after (.downstreamResponse 3 true 8) readingData
    reads.dport.rollQueue.map DownRequest.addr = [0x1F1DC0] ∧
      writes.dport.rollQueue.map (fun q => (q.addr, q.data)) = [(0x600, 7)] ∧
      fails.faults = [⟨.rollbackRead, some 5, some 0x1F1D80, some 998, 1, false⟩] ∧ (fails.region 5).txn = .faulted ∧
      (after (.downstreamResponse 3 false 0) (readingHeader 4)).faults =
        [⟨.rollbackRead, some 5, some 0x1F1DA0, none, 4, false⟩] := by decide

/-- FORMAT has been taken, and the part in RESTORING with no walk left. -/
def formatting : State := after (.format 0x1F0000 2) quiet

/-- A part in device state `d` with an anchor write of a purpose in progress, whose last read-back is on tag 3; its snapshot
is the index 100. -/
def anchored (d : DeviceState) (purpose : AnchorPurpose) (attempts : Nat) : State :=
  let s := (inDevice d).updLog fun l =>
    { l with anchor := some ⟨purpose, 0, 10, 100, 900, ⟨[(0x1FFFC0, 7)], attempts, true, 1, false⟩⟩ }
  { s with dport := { s.dport with tags := s.dport.tags.set 3 (.outstanding .logManager .anchor .read 0x1FFFC0 50 0 true) } }

theorem verifies (d : DeviceState) (purpose : AnchorPurpose) : VerifiesAnchor (anchored d purpose 1) 3 7
    ⟨purpose, 0, 10, 100, 900, ⟨[(0x1FFFC0, 7)], 1, true, 1, false⟩⟩ :=
  ⟨rfl, rfl, rfl, rfl, _, _, _, _, _, rfl, .head _⟩

theorem fails (d : DeviceState) (purpose : AnchorPurpose) (n : Nat) : FailsAnchor (anchored d purpose n) 3
    ⟨purpose, 0, 10, 100, 900, ⟨[(0x1FFFC0, 7)], n, true, 1, false⟩⟩ :=
  ⟨rfl, rfl, _, _, _, _, _, rfl⟩

/-- A DEFERRED group of region 0 behind an anchor write that leaves the log the space for its record, or not. -/
def admitting (head : Nat) : State :=
  let s := withTable opened [firstWrite 2 0 0x20]
  let s := s.updWriter fun w => { w with deferred := some ⟨0, 4, [2], [⟨0x20, true, 0, none⟩]⟩ }
  let s := s.updLog fun l =>
    { l with head := head, deferred := some ⟨0, 1⟩, anchor := (anchored .run .reclaim 1).log.anchor }
  { s with dport := (anchored .run .reclaim 1).dport }

theorem witness_FormatAndRecoveryAnchorsStart :
    formatting.inReset = false ∧ formatting.log.geometry = some ⟨0x1F0000, 0x2000⟩ ∧ formatting.device = .formatting ∧
      formatting.log.formatPending = true ∧ formatting.log.formatDrain = [] ∧ run.device ≠ .formatting ∧
      (inDevice .restoring).log.geometry = some ⟨0x1F0000, 0x2000⟩ ∧ (inDevice .restoring).device = .restoring ∧
      (inDevice .restoring).engine.queue = [] ∧ (inDevice .restoring).engine.walk = none ∧
      (inDevice .restoring).log.anchor = none ∧
      (∃ a, ((inDevice .restoring).startAnchor .reclaim).log.anchor = some a ∧ a.purpose ≠ .recovery) ∧
      run.device ≠ .restoring ∧
      (∀ d purpose, ∃ a, VerifiesAnchor (anchored d purpose 1) 3 7 a ∧ a.purpose = purpose) ∧
      (∀ d purpose, ∃ a, FailsAnchor (anchored d purpose 3) 3 a ∧
        a.unit.attempts - 1 < (anchored d purpose 3).params.retryLimit) ∧
      (∀ d purpose, ∃ a, FailsAnchor (anchored d purpose 4) 3 a ∧
        (anchored d purpose 4).params.retryLimit ≤ a.unit.attempts - 1) ∧
      (∃ a grp, VerifiesAnchor (admitting 35) 3 7 a ∧ (admitting 35).writer.deferred = some grp ∧ a.purpose = .reclaim ∧
        ((admitting 35).anchored a).log.admits (decide (((admitting 35).region grp.region).records = 0)) grp.lines.length =
          true ∧ (admitting 35).writer.builder = none) ∧
      (∃ a grp, VerifiesAnchor (admitting 98) 3 7 a ∧ (admitting 98).writer.deferred = some grp ∧
        ((admitting 98).anchored a).log.admits (decide (((admitting 98).region grp.region).records = 0)) grp.lines.length =
          false ∧ a.tail ≠ (admitting 98).log.volatileTail) :=
  ⟨by decide, by decide, by decide, by decide, by decide, by decide, by decide, by decide, by decide, by decide, by decide,
    ⟨_, rfl, by decide⟩, by decide, fun d p => ⟨_, verifies d p, rfl⟩, fun d p => ⟨_, fails d p 3, show 3 - 1 < 3 by decide⟩,
    fun d p => ⟨_, fails d p 4, show 3 ≤ 4 - 1 by decide⟩,
    ⟨_, _, ⟨rfl, rfl, rfl, rfl, _, _, _, _, _, rfl, by decide⟩, rfl, rfl, by decide, by decide⟩,
    ⟨_, _, ⟨rfl, rfl, rfl, rfl, _, _, _, _, _, rfl, by decide⟩, rfl, by decide, by decide⟩⟩

/-- R52: with slot 1 current the anchor goes to slot 0. -/
theorem test_recovery_anchor_slot :
    (after .recoveryEnd (inDevice .restoring)).dport.anchorQueue.map DownRequest.addr = [0x1FFFC0] := by decide

/-- R52, R57, R134, R146: what a verified anchor write brings about in each of its purposes; its slot and snapshot are
taken. -/
theorem test_anchor_sequels :
    let verified (d : DeviceState) (p : AnchorPurpose) := after (.downstreamResponse 3 true 7) (anchored d p 1)
    (verified .run .reclaim).log.durableTail = 100 ∧ (verified .run .reclaim).log.slot = some 0 ∧
      (verified .run .reclaim).log.anchor = none ∧ (verified .restoring .recovery).device = .run ∧
      ((verified .formatting .formatFirst).log.anchor.map AnchorWrite.slot) = some 1 ∧
      (verified .formatting .formatSecond).device = .run ∧
      (after (.downstreamResponse 3 false 7) (anchored .run .reclaim 4)).device = .logFault ∧
      (after (.downstreamResponse 3 false 7) (anchored .run .reclaim 4)).log.durableTail = 40 := by decide

/-- R48, R49: the DEFERRED group is granted when the anchor has reclaimed enough, and waits for another one otherwise. -/
theorem test_deferred_admission :
    let granted := after (.downstreamResponse 3 true 7) (admitting 35)
    let waits := after (.downstreamResponse 3 true 7) (admitting 98)
    (granted.region 0).records = 1 ∧ granted.dport.logQueue.map DownRequest.addr = [0x20] ∧ granted.log.head = 38 ∧
      granted.writer.deferred = none ∧ waits.log.deferred = some ⟨0, 1⟩ ∧
      waits.log.anchor.map AnchorWrite.tail = some 236 := by decide

/-- SETTLING with nothing left, entered from RUN; the closing anchor is due unless `tail` is the durable tail, 40. -/
def settling (tail : Nat) : State :=
  ((inDevice .quiescing).updPowerFail fun p => { p with phase := .settling, entry := some .run }).updLog
    fun l => { l with volatileTail := tail }

theorem witness_SettlingEndAnchorsOrHalts :
    (settling 236).inReset = false ∧ (settling 236).device = .quiescing ∧ (settling 236).powerFail.phase = .settling ∧
      Settled (settling 236) ∧ (settling 236).log.geometry = some ⟨0x1F0000, 0x2000⟩ ∧
      (settling 236).powerFail.entry = some .run ∧ (settling 236).log.volatileTail ≠ (settling 236).log.durableTail ∧
      (settling 236).powerFail.stalled = false ∧ (settling 40).log.volatileTail = (settling 40).log.durableTail ∧
      Settled (settling 40) ∧ run.device ≠ .quiescing ∧
      (∃ a, VerifiesAnchor (anchored .quiescing .closing 1) 3 7 a ∧ a.purpose = .closing) ∧
      (anchored .quiescing .closing 1).writer.deferred = none ∧ (anchored .quiescing .closing 1).log.anchorWanted = false ∧
      (∃ a, FailsAnchor (anchored .quiescing .closing 4) 3 a ∧ a.purpose = .closing ∧
        (anchored .quiescing .closing 4).params.retryLimit ≤ a.unit.attempts - 1) :=
  ⟨by decide, by decide, by decide, ⟨by decide, by decide, by decide, by decide, by decide, by decide, by decide⟩,
    by decide, by decide, by decide, by decide, by decide,
    ⟨by decide, by decide, by decide, by decide, by decide, by decide, by decide⟩, by decide,
    ⟨_, verifies _ _, rfl⟩, by decide, by decide, ⟨_, fails _ _ _, rfl, by decide⟩⟩

theorem test_settling_ends :
    (after .settlingEnd (settling 236)).powerFail.phase = .anchoring ∧ (after .settlingEnd (settling 40)).device = .halted ∧
      (after .settlingEnd (settling 40)).safe = true := by decide

/-- R144: the power-fail warning that leaves nothing to drain halts the part on its own event; R146: so does the closing
anchor, verified or exhausted. -/
theorem test_halting_events :
    (after .powerFailWarning (inDevice .nolog)).device = .halted ∧
      (after (.downstreamResponse 3 true 7) (anchored .quiescing .closing 1)).safe = true ∧
      (after (.downstreamResponse 3 false 7) (anchored .quiescing .closing 4)).device = .halted := by decide

theorem witness_FaultPushKeepsTheOldestEntries :
    run.faults.length < 4 ∧ stallFault.overwritten = false ∧
      (((run.pushFault stallFault).pushFault stallFault).pushFault stallFault |>.pushFault stallFault).faults.length = 4 := by
  decide

theorem witness_AdmissionKeepsTheReserve :
    ring.head < ring.ring ∧ ring.durableTail < ring.ring ∧ ring.admits true 8 = true := by decide

/-- A valid anchor slot with a sequence: the log of section 2.10 with its durable tail at 40. -/
def slotBlock (seq : Word32) : Line := anchorBlock seq ⟨0x1F0000, 0x2000⟩ 3 40 900

/-- START with slot `slot` still outstanding on tag 3 and the other slot read as `other`. -/
def selecting (slot : Fin 2) (other : Line) : State :=
  let s := State.reset.setSlot (1 - slot) ⟨1, .read other⟩
  { s with
    dport := { s.dport with
      tags := s.dport.tags.set 3 (.outstanding .startup .anchor .read (0x1FFFC0 + 32 * slot.val) 50 0 true)
      anchorQueue := [] } }

/-- The WRAP marker of sequence 998 and generation 3 by Table 11-11, its CRC computed outside the model. -/
def wrap998 : Line := 0x7a65549f0000000000000000000000000000000000000003000003e600000004

/-- A scan at position `p` and distance `k` with the log of section 2.10 expecting sequence 998; the blocks `before` are in,
and the next, read `n` times, is on tag 3. Region 5's tracker is `x`. -/
def scanning (p k n : Nat) (before : List Line) (x : Tracker) : State :=
  let s := State.reset.setDevice .scanning
  let s := s.updLog fun l =>
    { l with geometry := some ⟨0x1F0000, 0x2000⟩, generation := 3, slot := some 1, anchorSeq := 9, durableTail := 40 }
  let s := s.updStartup fun u =>
    { u with position := p, expected := 998, distance := k, trackers := u.trackers.set 5 x,
             blocks := (before.map fun b => ⟨1, some b⟩) ++ [⟨n, none⟩] }
  { s with
    dport := { s.dport with
      anchorQueue := []
      tags := s.dport.tags.set 3
        (.outstanding .startup .logWriter .read (0x1F0000 + 32 * (p + before.length)) 50 0 true) } }

/-- A tracker that has met nothing, and one with the candidate that the log of section 2.10 leaves. -/
def unseen : Tracker := ⟨none, none⟩

def met5 : Tracker := ⟨some 1, some ⟨1, 230, 995, 230, 1⟩⟩

theorem brings (p k n : Nat) (before : List Line) (x : Tracker) :
    BringsScanBlock (scanning p k n before x) 3 before n :=
  ⟨rfl, rfl, ⟨before.map fun b => ⟨1, some b⟩, rfl, by simp [List.map_map, Function.comp_def]⟩, _, _, _, _, rfl⟩

set_option exponentiation.threshold 600 in
set_option maxRecDepth 8000 in
theorem headerPasses5 : HeaderPasses (scanning 236 196 1 [block5 0] unseen) 236 (readHeader (block5 0) (block5 1)) where
  crc := by decide
  sequence := by decide
  identity := by decide
  count := by decide
  fit := by decide
  flags := by decide
  undoFirst := by decide
  undoLater := by decide
  closing := by decide

set_option exponentiation.threshold 600 in
set_option maxRecDepth 8000 in
theorem witness_AnchorSelectionStartsTheScan :
    ((selecting 0 0).inReset = false ∧ (selecting 0 0).device = .start ∧ (0 : Fin 2) ≠ 1 ∧
      (selecting 0 (slotBlock 9)).startup.slots.get 1 = ⟨1, .read (slotBlock 9)⟩ ∧
      (selecting 0 0).tag 3 = .outstanding .startup .anchor .read ((selecting 0 0).memorySize - 64 + 32 * (0 : Fin 2).val) 50 0 true ∧
      anchorValid (selecting 0 0).memorySize 0 = false ∧
      anchorValid (selecting 0 0).memorySize (slotBlock 9) = true ∧
      anchorValid (selecting 0 0).memorySize (slotBlock 10) = true ∧
      sequenceAhead (readAnchor (slotBlock 10)).sequence (readAnchor (slotBlock 9)).sequence = true ∧
      sequenceAhead (readAnchor (slotBlock 0)).sequence (readAnchor (slotBlock 0xFFFFFFFF)).sequence = true) ∧
      ((readAnchor (slotBlock 9)).sequence = (readAnchor (slotBlock 9)).sequence ∧ (1 : Fin 2) = 1) ∧
      (∀ p k n before x, BringsScanBlock (scanning p k n before x) 3 before n ∧
        (scanning p k n before x).log.geometry ≠ none) ∧
      (blockKind wrap998 = 4 ∧ WrapPasses (scanning 255 215 1 [] unseen) 255 wrap998 ∧
        ¬WrapPasses (scanning 240 200 1 [] unseen) 240 wrap998) ∧
      (blockKind (block5 0) = 1 ∧ 255 + 1 = (scanning 255 215 1 [] unseen).log.ring ∧
        236 + 1 ≠ (scanning 236 196 1 [] unseen).log.ring ∧ blockKind 0 = 0) ∧
      HeaderPasses (scanning 236 196 1 [block5 0] unseen) 236 (readHeader (block5 0) (block5 1)) ∧
      ¬HeaderPasses (scanning 236 196 1 [block5 0] unseen) 236 (readHeader (block5 0) 0) ∧
      ((readHeader (block5 0) (block5 1)).count ≠ 0 ∧ (readHeader (block5 0) (block5 1)).region = (5 : RegionId).val ∧
        dataCrc ([] ++ [7]) = (readHeader (block5 0) (block5 1)).dataCrc ∧
        dataCrc ([] ++ [8]) ≠ (readHeader (block5 0) (block5 1)).dataCrc) ∧
      (∃ y, Agrees 236 (readHeader (block5 0) (block5 1)) unseen y) ∧
      (∀ y, ¬Agrees 236 (readHeader (block5 0) (block5 1)) met5 y) ∧
      (1 - 1 < (scanning 236 196 1 [] unseen).params.retryLimit ∧
        (scanning 236 196 4 [] unseen).params.retryLimit ≤ 4 - 1) := by
  refine ⟨by decide, by decide, fun p k n before x => ⟨brings p k n before x, by simp [scanning, State.updLog,
    State.updStartup, State.setDevice]⟩,
    ⟨by decide, by unfold WrapPasses; decide, fun h => absurd h.2.2.2.2.1 (by decide)⟩, by decide, headerPasses5,
    fun h => absurd h.crc (by decide), by decide, ⟨_, .opens none (by decide) (by decide)⟩, ?_, by decide⟩
  intro y h
  cases h with
  | continues _ _ _ hf => exact absurd hf (by decide)
  | closes _ _ hk => exact absurd (show _ = 1 by decide) hk

set_option maxRecDepth 8000 in
theorem test_newer_slot_is_selected :
    (after (.downstreamResponse 3 true (slotBlock 10)) (selecting 0 (slotBlock 9))).log.slot = some 0 ∧
      (after (.downstreamResponse 3 true (slotBlock 9)) (selecting 0 (slotBlock 9))).log.slot = some 1 ∧
      (after (.downstreamResponse 3 true (slotBlock 9)) (selecting 0 0)).dport.rollQueue.map DownRequest.addr = [0x1F0500] ∧
      (after (.downstreamResponse 3 true 0) (selecting 0 0)).device = .nolog := by decide

set_option exponentiation.threshold 600 in
set_option maxRecDepth 8000 in
/-- R123, R125: block by block through a record, and past a marker at the last index. -/
theorem test_scan_moves_on :
    let first := after (.downstreamResponse 3 true (block5 0)) (scanning 236 196 1 [] unseen)
    let header := after (.downstreamResponse 3 true (block5 1)) (scanning 236 196 1 [block5 0] unseen)
    let record := after (.downstreamResponse 3 true 7) (scanning 236 196 1 [block5 0, block5 1] unseen)
    let marker := after (.downstreamResponse 3 true wrap998) (scanning 255 215 1 [] unseen)
    first.dport.rollQueue.map DownRequest.addr = [0x1F1DA0] ∧ header.dport.rollQueue.map DownRequest.addr = [0x1F1DC0] ∧
      record.startup.position = 239 ∧ record.startup.distance = 199 ∧ record.startup.expected = 999 ∧
      record.startup.trackers.get 5 = ⟨some 1, some ⟨1, 236, 998, 236, 1⟩⟩ ∧
      record.dport.rollQueue.map DownRequest.addr = [0x1F1DE0] ∧ marker.startup.position = 0 ∧
      marker.startup.distance = 216 ∧ marker.dport.rollQueue.map DownRequest.addr = [0x1F0000] := by decide

set_option maxRecDepth 8000 in
/-- R127, R129, R130, R128: at the head the region with a candidate is queued, and its walk starts on the event (R85); when
the reads are exhausted it is FAULTED. -/
theorem test_scan_ends :
    let ended := after (.downstreamResponse 3 true 0) (scanning 236 196 1 [] met5)
    let stopped := after (.downstreamResponse 3 false 0) (scanning 236 196 4 [] met5)
    ended.device = .restoring ∧ ended.log.head = 236 ∧ ended.log.nextSeq = 998 ∧ ended.log.unresolved = 1 ∧
      ended.log.volatileTail = 230 ∧ ended.log.tailSeq = 995 ∧ ended.engine.walk = some 5 ∧
      ended.dport.rollQueue.map DownRequest.addr = [0x1F1CC0, 0x1F1CE0] ∧ stopped.device = .logFault ∧
      (stopped.region 5).txn = .faulted ∧ stopped.faults = [⟨.recoveryRead, none, some 0x1F1D80, some 998, 4, false⟩] := by
  decide

theorem witness_LogContentsReadBack :
    let r : LogRecord := ⟨.undo, 7, false, false, 1000, 4, some 0, [0x20, 0x40, 0x60, 0x80, 0xA0, 0xC0, 0xE0, 0x100], 3, 255⟩
    r.lines.length ≤ 8 ∧ (∀ a ∈ r.lines, a < 2 ^ 32) ∧ r.firstIndex < 2 ^ 32 ∧ (3 : Word32) ≠ 0 ∧
      0x1FC000 % 4096 = 0 ∧ 8192 % 4096 = 0 ∧ 0x1FC000 + 8192 ≤ 0x200000 - 64 ∧ 255 < Geometry.blocks ⟨0x1FC000, 8192⟩ := by
  decide

theorem line_law {s : State}
    (h : s.table.Pairwise fun a b => lineOf a.addr = lineOf b.addr → b.state = .waitOrder) : LineLaw s := h

theorem witness_EveryStepKeepsTheRanges :
    InRange { State.reset with pending := [.tick] } ∧ (∃ t, step { State.reset with pending := [.tick] } = .next t) :=
  ⟨inRange (by decide), _, rfl⟩

theorem witness_EveryStepKeepsThePowerAndDirectoryLaws :
    PowerLaw run ∧ DirectoryLaw { grouping with directory := [⟨0, 0x20, false⟩] } ∧ (inDevice .halted).device = .halted ∧
      ∃ t, exec .tick (inDevice .halted) = .next t :=
  ⟨⟨by decide, by decide, by decide, by decide, by decide⟩, ⟨by decide, by decide⟩, by decide, _, rfl⟩

theorem witness_EveryStepKeepsTheWindowsApart :
    WindowLaw { run with pending := [.applyNow 7] } ∧ ∃ t, step { run with pending := [.applyNow 7] } = .next t :=
  ⟨windows (by decide), _, rfl⟩

theorem witness_EveryStepKeepsSameLineOrder :
    InRange { lined with pending := [.downstreamIssue] } ∧ LineLaw { lined with pending := [.downstreamIssue] } ∧
      (∃ t, step { lined with pending := [.downstreamIssue] } = .next t) ∧
      InRange { run with pending := [.upstreamRequest (request 0x1FC 1)] } ∧
      NothingDue { run with pending := [.upstreamRequest (request 0x1FC 1)] } ∧
      (∃ t, step { run with pending := [.upstreamRequest (request 0x1FC 1)] } = .next t) ∧
      (∀ r, ({ aging with pending := [.tick] }.region r).expiryDue = false) ∧
      ∃ t, step { aging with pending := [.tick] } = .next t :=
  ⟨inRange (by decide), line_law (by decide), ⟨_, rfl⟩, inRange (by decide),
    nothingDue (by decide) (by decide) (by decide) (by decide), ⟨_, rfl⟩, by decide, _, rfl⟩

theorem witness_EveryRequestIsAnsweredOnce :
    InRange run ∧ Instr.upstreamRequest (request 0 1) ≠ .resetAssert ∧
      (∀ m b, Instr.upstreamRequest (request 0 1) ≠ .resetRelease m b) ∧ run.requestReady = true ∧
      run.entry (request 0 1).tag = none ∧ ∃ t, exec (.upstreamRequest (request 0 1)) run = .next t :=
  ⟨run_inRange, by decide, by decide, by decide, by decide, _, rfl⟩

theorem witness_OnlyClaimAndResetClearANotice :
    noticed.flag 27 = true ∧ claimed noticed.notices = some 26 ∧ ∃ t, exec .claim noticed = .next t :=
  ⟨by decide, by decide, _, rfl⟩

end Sys2Proof.Machine.Tests
end

section
/-! SUPPORT. How a law of the part is carried through a command: the steps common to the link commands, said once. -/

namespace Sys2Proof.Machine

/-! ## Taking a link command -/

/-- What a command's owner and the holding of a frame keep, the command keeps. -/
theorem State.takeCommand_keeps {P : State → Prop} (hold : ∀ t f, P t → P (t.holdFrame f)) {s : State} {c : Instr}
    {len : Nat} {owner : State → Reply} (hs : P s) (h : P (owner s).state) : P (s.takeCommand c len owner) := by
  unfold State.takeCommand
  split_ifs
  · exact hold _ _ h
  · exact hs

/-- A gated command leaves the state, or its owner acts in one of the device states that admit it (R186). -/
theorem gated_keeps {P : State → Prop} {s : State} {owner : State → Reply} (hs : P s)
    (h : s.admitsAll = true → P (owner s).state) : P (gated owner s).state := by
  unfold gated
  split_ifs with hd
  · exact h hd
  · exact hs

/-- A command on a region leaves the state, or its owner acts on a region. -/
theorem onRegion_keeps {P : State → Prop} {s : State} {b : Byte} {owner : RegionId → State → Reply} (hs : P s)
    (h : ∀ r, P (owner r s).state) : P (onRegion b owner s).state := by
  unfold onRegion
  split
  · exact h _
  · exact hs

/-- What an event's effect keeps, the event keeps in reset too. -/
theorem State.unlessReset_keeps {P : State → Prop} {s : State} {f : State → State} (hs : P s)
    (h : s.inReset = false → P (f s)) : P (s.unlessReset f) := by
  unfold State.unlessReset
  split_ifs with hr
  · exact hs
  · exact h (by simpa using hr)

/-- A step keeps a law that every command keeps and that does not look at the queue of commands. -/
theorem step_keeps {P : State → Prop} (queue : ∀ s q, P s → P { s with pending := q })
    (command : ∀ c s t, P s → exec c s = .next t → P t) {s t : State} (hs : P s) (h : step s = .next t) : P t := by
  unfold step at h
  split at h
  · exact command _ _ t (queue s _ hs) h
  · cases h
    exact hs

/-! ## Single commands -/

/-- STAGE leaves the state, or writes one staged descriptor while the device serves (R6). -/
theorem execStage_keeps {P : State → Prop} (hold : ∀ t f, P t → P (t.holdFrame f)) {s t : State} {b f : Byte} {v : Word32}
    (hs : P s) (h : ∀ r d, s.admitsAll = true →
      (s.region r).staged.withField s.memorySize f.toNat v.toNat = some d →
      P (s.updRegion r fun x => { x with staged := d }))
    (ht : exec (.stage b f v) s = .next t) : P t := by
  cases ht
  refine State.takeCommand_keeps hold hs (gated_keeps hs fun ha => onRegion_keeps hs fun r => ?_)
  unfold stageReply
  split
  · next d hd => exact h r d ha hd
  · exact hs

/-- FORMAT leaves the state, or passes its checks and gives the log a new geometry (R55, R56). -/
theorem execFormat_keeps {P : State → Prop} (hold : ∀ t f, P t → P (t.holdFrame f)) {s t : State} {base : BitVec 24}
    {units : BitVec 16} (hs : P s) (kept : ∀ {s t}, Kept s t → P s → P t)
    (h : base.toNat % 4096 = 0 → 2 ≤ units.toNat → units.toNat ≤ 512 →
      s.areaMeets base.toNat (4096 * units.toNat) = false → P (s.formatStart ⟨base.toNat, 4096 * units.toNat⟩))
    (ht : exec (.format base units) s = .next t) : P t := by
  cases ht
  refine State.takeCommand_keeps hold hs (gated_keeps hs fun _ => ?_)
  obtain k | ⟨⟨h1, h2, h3⟩, -, h4, k⟩ := formatReply_cases base.toNat units.toNat s
  · rw [k]; exact hs
  · rw [k, done_state]
    exact kept (Kept.takeFormat s _) (h h1 h2 h3 h4)

/-- A host request that is taken is dropped, answered at once, or entered at the end of the table (R151). -/
theorem execUpstreamRequest_keeps {P : State → Prop} {s t : State} {q : HostRequest} (hs : P s)
    (kept : ∀ {s t}, Kept s t → P s → P t)
    (answered : P { s with responses :=
      s.responses ++ [{ tag := q.tag, reason := .protocol, data := errorData q.op q.count }] })
    (entered : s.requestReady = true → s.entry q.tag = none → P { s with table := s.table ++ [HostRequest.newEntry q] })
    (ht : exec (.upstreamRequest q) s = .next t) : P t := by
  cases ht
  unfold State.takeRequest
  split_ifs with hr hd
  · exact kept (.pushFault _ _) hs
  · exact kept (.followOn _) (entered hr (by simpa using hd))
  · exact answered
  · exact hs

/-- The entry an issue makes ISSUED was READY: the arbiter takes a host request from the oldest READY entry (R164). -/
theorem State.choose_host {s : State} {q : DownRequest} (h : s.choose = some (.host, q)) :
    ∃ e ∈ s.table, e.state = .ready ∧ q = e.request := by
  have hq : ∀ x, s.dport.queued = some x → x.1 ≠ .host := by
    intro x hx
    unfold Downstream.queued at hx
    split at hx <;> cases hx <;> simp
  have host : (s.hostHead.map fun e => (IssueClass.host, e.request)) = some (.host, q) := by
    unfold State.choose at h
    dsimp only at h
    split_ifs at h
    · exact h
    · split at h
      · next x hx =>
        cases h
        exact absurd rfl (hq _ hx)
      · exact h
  obtain ⟨e, he, k⟩ := Option.map_eq_some_iff.mp host
  cases k
  exact ⟨e, List.mem_of_find?_eq_some he, by simpa using List.find?_some he, rfl⟩

/-- An issue leaves the table, or makes a READY entry ISSUED; it changes the downstream port and the record of issues
besides (R166). -/
theorem State.issueNext_keeps {P : State → Prop} {s : State} (hs : P s)
    (h : ∀ g cls q, s.lowestFree = some g → s.choose = some (cls, q) →
      ∀ table, table = s.table ∨ (∃ e ∈ s.table, e.state = .ready ∧
        table = s.table.map fun x => if x.tag = e.tag then { x with state := .issued } else x) →
      P { s with dport := (s.issueRequest g cls q).dport, table := table, issued := s.issued ++ [(g, q)] }) :
    P s.issueNext := by
  obtain k | ⟨g, cls, q, hg, hc, k⟩ := s.issueNext_cases
  · rwa [k]
  · rw [k]
    have stands (hn : cls ≠ .host) : s.issueRequest g cls q =
        { s with dport := (s.issueRequest g cls q).dport, issued := s.issued ++ [(g, q)] } := by
      cases cls
      case host => exact absurd rfl hn
      all_goals rfl
    by_cases hh : cls = .host
    · subst hh
      obtain ⟨e, he, hr, rfl⟩ := State.choose_host hc
      exact h g .host _ hg hc _ (.inr ⟨e, he, hr, rfl⟩)
    · rw [stands hh]
      exact h g cls q hg hc _ (.inl rfl)

/-! ## All commands -/

/-- The commands that set parameters, notices, the Fault Queue, the link or the leave to issue, and nothing else; the reads
set the link's frame. -/
def setsSettings : Instr → Bool
  | .ident | .readStatus | .readLog | .readRegion _ | .readParam _ | .readPending | .readFault | .unknownCommand _ _
  | .setParam _ _ | .setPriority _ _ | .setThreshold _ | .popFault | .claim | .frameDiscard _ | .frameEnd
  | .firstIssueDelayExpiry => true
  | _ => false

/-- One state is another with other settings: the parameters, the notices, the Fault Queue, the link, the leave to issue
and the queue of commands. -/
def SettingsOnly (s t : State) : Prop :=
  ∃ params notices faults link allowed pending, t = { s with params := params, notices := notices, faults := faults,
                                                             link := link, issueAllowed := allowed, pending := pending }

theorem SettingsOnly.refl (s : State) : SettingsOnly s s := ⟨_, _, _, _, _, _, rfl⟩

theorem SettingsOnly.holdFrame {s t : State} (h : SettingsOnly s t) (f : Frame) : SettingsOnly s (t.holdFrame f) := by
  obtain ⟨_, _, _, _, _, _, rfl⟩ := h
  exact ⟨_, _, _, _, _, _, rfl⟩

theorem SettingsOnly.endFrame (s : State) : SettingsOnly s s.endFrame := by
  unfold State.endFrame
  split_ifs
  · exact .refl s
  · exact ⟨_, _, _, _, _, _, rfl⟩

theorem exec_settingsOnly {c : Instr} (hc : setsSettings c = true) {s t : State} (he : exec c s = .next t) :
    SettingsOnly s t := by
  have hold : ∀ (t : State) (f : Frame), SettingsOnly s t → SettingsOnly s (t.holdFrame f) := fun _ f h => h.holdFrame f
  have hs := SettingsOnly.refl s
  cases c <;> cases hc <;> cases he
  case ident | readStatus | readLog | readPending | readFault => exact State.takeCommand_keeps hold hs hs
  case readRegion => exact State.takeCommand_keeps hold hs (gated_keeps hs fun _ => onRegion_keeps hs fun _ => hs)
  case readParam =>
    refine State.takeCommand_keeps hold hs ?_
    unfold readParamReply
    split <;> exact hs
  case unknownCommand =>
    unfold State.takeUnknown
    split_ifs
    · exact State.takeCommand_keeps hold hs hs
    · exact State.takeCommand_keeps hold hs (gated_keeps hs fun _ => onRegion_keeps hs fun _ => hs)
    · exact hs
  case setParam =>
    refine State.takeCommand_keeps hold hs (gated_keeps hs fun _ => ?_)
    unfold setParamReply
    split
    · exact ⟨_, _, _, _, _, _, rfl⟩
    · exact hs
  case setPriority =>
    refine State.takeCommand_keeps hold hs (gated_keeps hs fun _ => ?_)
    unfold setPriorityReply
    split_ifs
    · exact ⟨_, _, _, _, _, _, rfl⟩
    · exact hs
    · exact hs
  case setThreshold =>
    refine State.takeCommand_keeps hold hs (gated_keeps hs fun _ => ?_)
    unfold setThresholdReply
    split_ifs
    · exact ⟨_, _, _, _, _, _, rfl⟩
    · exact hs
  case popFault =>
    refine State.takeCommand_keeps hold hs (gated_keeps hs fun _ => ?_)
    unfold popFaultReply
    split
    · exact hs
    · exact ⟨_, _, _, _, _, _, rfl⟩
  case claim =>
    refine State.takeCommand_keeps hold hs ?_
    unfold claimReply
    split
    · exact ⟨_, _, _, _, _, _, rfl⟩
    · exact hs
  case frameDiscard =>
    split_ifs
    · exact .endFrame s
    · exact hs
  case frameEnd => exact .endFrame s
  case firstIssueDelayExpiry => exact State.unlessReset_keeps hs fun _ => ⟨_, _, _, _, _, _, rfl⟩

/-- A law that settings do not touch and that everything else a command can do keeps. -/
structure Stable (P : State → Prop) : Prop where
  kept : ∀ {s t}, Kept s t → P s → P t
  settings : ∀ {s t}, SettingsOnly s t → P s → P t
  stage : ∀ {s} r d, s.admitsAll = true → P s → P (s.updRegion r fun x => { x with staged := d })
  format : ∀ {s : State} {base units : Nat}, base % 4096 = 0 → 2 ≤ units → units ≤ 512 →
    s.areaMeets base (4096 * units) = false → P s → P (s.formatStart ⟨base, 4096 * units⟩)
  answered : ∀ {s : State} r, P s → P { s with responses := s.responses ++ [r] }
  entered : ∀ {s} q, s.entry q.tag = none → P s → P { s with table := s.table ++ [HostRequest.newEntry q] }
  issueNext : ∀ {s}, P s → P s.issueNext
  tick : ∀ {s}, P s → P s.tick
  assertReset : ∀ {s}, P s → P s.assertReset
  afterReset : ∀ msize selected pending n, P { State.afterReset msize selected pending with freeCount := n }

theorem Stable.holdFrame {P : State → Prop} (h : Stable P) (t : State) (f : Frame) (ht : P t) : P (t.holdFrame f) :=
  h.settings ((SettingsOnly.refl t).holdFrame f) ht

/-- Every command keeps a stable law. -/
theorem Stable.exec {P : State → Prop} (h : Stable P) {c : Instr} {s t : State} (hs : P s) (he : exec c s = .next t) :
    P t := by
  cases hc : setsState c with
  | false =>
    obtain ⟨u, hu, k⟩ := exec_kept hc s
    obtain rfl : u = t := by rw [hu] at he; exact Host.Outcome.next.inj he
    obtain k | ⟨v, f, k, rfl⟩ := k
    · exact h.kept k hs
    · exact h.holdFrame _ f (h.kept k hs)
  | true =>
    cases c
    case setParam | setPriority | setThreshold | popFault | claim | frameDiscard | frameEnd | firstIssueDelayExpiry =>
      exact h.settings (exec_settingsOnly rfl he) hs
    case stage => exact execStage_keeps h.holdFrame hs (fun r d ha _ => h.stage r d ha hs) he
    case format =>
      exact execFormat_keeps h.holdFrame hs h.kept (fun hb h2 h512 hm => h.format hb h2 h512 hm hs) he
    case resetAssert => cases he; exact h.assertReset hs
    case resetRelease => cases he; exact h.afterReset _ _ _ _
    case upstreamRequest q =>
      exact execUpstreamRequest_keeps hs h.kept (h.answered _ hs) (fun _ hq => h.entered q hq hs) he
    case downstreamIssue => cases he; exact State.unlessReset_keeps hs fun _ => h.issueNext hs
    case tick =>
      cases he
      exact State.unlessReset_keeps hs fun _ => h.kept ((Kept.takeExpiries _).trans (.followOn _)) (h.tick hs)
    all_goals exact absurd (show false = true from hc) Bool.false_ne_true

/-- Every step keeps a stable law. -/
theorem Stable.step {P : State → Prop} (h : Stable P) {s t : State} (hs : P s) (he : step s = .next t) : P t :=
  step_keeps (fun _ _ hs => h.settings ⟨_, _, _, _, _, _, rfl⟩ hs) (fun _ _ _ hs he => h.exec hs he) hs he

end Sys2Proof.Machine
end

section
/-! SUPPORT. The ranges of the part (R2, R60, R113, R152, R165, R176, R191): what keeps them, and that every step does. -/

namespace Sys2Proof.Machine

/-! ## Ranges -/

/-- Everything the operations below the level of a command do stays in the ranges. -/
theorem Kept.inRange {s t : State} (k : Kept s t) (h : InRange s) : InRange t where
  faults := k.note.faults h.faults
  table := by simpa [State.tags] using k.sub.length_le.trans (by simpa [State.tags] using h.table)
  tags := k.sub.nodup h.tags
  directory := k.reg.directory h.directory
  share := by rw [k.same.share]; exact h.share
  ages r := k.reg.age r (h.ages r)
  live r := by
    simp only [State.memorySize, k.same.msize]
    obtain e | e := k.reg.live r <;> rw [e]
    · exact h.live r
    · exact h.staged r
  staged r := by
    simp only [State.memorySize, k.same.msize, k.reg.staged r]
    exact h.staged r
  priorities n := by rw [k.same.priority]; exact h.priorities n
  threshold := by rw [k.same.threshold]; exact h.threshold
  noSource := k.note.zero.trans h.noSource
  params := by rw [k.same.params]; exact h.params

theorem InRange.holdFrame {s : State} (h : InRange s) (f : Frame) : InRange (s.holdFrame f) :=
  ⟨h.faults, h.table, h.tags, h.directory, h.share, h.ages, h.live, h.staged, h.priorities, h.threshold, h.noSource,
   h.params⟩

theorem InRange.pending {s : State} (h : InRange s) (q : List Instr) : InRange { s with pending := q } :=
  ⟨h.faults, h.table, h.tags, h.directory, h.share, h.ages, h.live, h.staged, h.priorities, h.threshold, h.noSource,
   h.params⟩

/-- New contexts of the regions keep the ranges when each of them is in its own. -/
theorem InRange.regions {s t : State} (h : InRange s) (ht : t = { s with regions := t.regions, timebase := t.timebase })
    (ha : ∀ r, (t.region r).age ≤ 65535) (hl : ∀ r, (t.region r).live.InRange s.memorySize)
    (hs : ∀ r, (t.region r).staged.InRange s.memorySize) : InRange t := by
  rw [ht]
  exact ⟨h.faults, h.table, h.tags, h.directory, h.share, ha, hl, hs, h.priorities, h.threshold, h.noSource, h.params⟩

/-- A descriptor with one field written keeps its ranges (R6). -/
theorem Descriptor.InRange.withField {memory code v : Nat} {d d' : Descriptor} (h : d.InRange memory)
    (hd : d.withField memory code v = some d') : d'.InRange memory := by
  obtain ⟨h1, h2, h3, h4, h5⟩ := h
  unfold Descriptor.withField at hd
  split at hd
  case h_2 =>
    split_ifs at hd with hv
    cases hd
    exact ⟨hv.1, hv.2, h3, h4, h5⟩
  case h_3 =>
    split_ifs at hd with hv
    cases hd
    exact ⟨h1, h2, Nat.succ_pos v, Nat.succ_le_succ hv, h5⟩
  case h_6 =>
    split_ifs at hd with hv
    cases hd
    exact ⟨h1, h2, h3, h4, hv⟩
  case h_8 => cases hd
  all_goals
    split at hd <;> cases hd <;> exact ⟨h1, h2, h3, h4, h5⟩

/-- A parameter set keeps the parameters' ranges (R191). -/
theorem Params.InRange.set {p p' : Params} {code v : Nat} (h : p.InRange) (hp : p.set code v = some p') : p'.InRange := by
  obtain ⟨h1, h2, h3, h4, h5, h6, h7⟩ := h
  unfold Params.set at hp
  split at hp
  case h_6 => cases hp
  all_goals
    split_ifs at hp with hv
    cases hp
  · exact ⟨hv.1, hv.2, h3, h4, h5, h6, h7⟩
  · exact ⟨h1, h2, hv, h4, h5, h6, h7⟩
  · exact ⟨h1, h2, h3, hv, h5, h6, h7⟩
  · exact ⟨h1, h2, h3, h4, hv, h6, h7⟩
  · exact ⟨h1, h2, h3, h4, h5, hv.1, hv.2⟩

/-- A new geometry and generation of the log are in no range's way. -/
theorem InRange.formatStart {s : State} (h : InRange s) (g : Geometry) : InRange (s.formatStart g) :=
  ⟨h.faults, h.table, h.tags, h.directory, h.share, h.ages, h.live, h.staged, h.priorities, h.threshold, h.noSource,
   h.params⟩

theorem State.entry_eq_none_iff (s : State) (g : HostTag) : s.entry g = none ↔ g ∉ s.table.map Entry.tag := by
  simp [State.entry]

/-- A request with a tag the table does not hold joins a table that is not full (R151, R153). -/
theorem InRange.enter {s : State} (h : InRange s) {q : HostRequest} (hr : s.requestReady = true)
    (hq : s.entry q.tag = none) : InRange { s with table := s.table ++ [HostRequest.newEntry q] } := by
  have hlen : s.table.length < 16 := by
    simp only [State.requestReady, Bool.and_eq_true, decide_eq_true_eq] at hr
    exact hr.2
  have hnew : q.tag ∉ s.table.map Entry.tag := (s.entry_eq_none_iff q.tag).mp hq
  refine ⟨h.faults, by simpa using hlen, ?_, h.directory, h.share, h.ages, h.live, h.staged, h.priorities, h.threshold,
    h.noSource, h.params⟩
  rw [List.map_append, List.nodup_append]
  refine ⟨h.tags, by simp, ?_⟩
  rintro g hg g' hg' rfl
  obtain rfl : g = q.tag := by simpa [HostRequest.newEntry] using hg'
  exact hnew hg

/-- The share count never passes the host's share (R165). -/
theorem State.shareAfter_le (s : State) (cls : IssueClass) : s.shareAfter cls ≤ 4 := by
  unfold State.shareAfter
  split_ifs <;> simp [Config.hostShare]

/-- Making one entry ISSUED leaves the tags. -/
theorem tags_map_issued (table : List Entry) (g : HostTag) :
    (table.map fun x => if x.tag = g then { x with state := .issued } else x).map Entry.tag = table.map Entry.tag := by
  rw [List.map_map]
  refine List.map_congr_left fun x _ => ?_
  simp only [Function.comp]
  split_ifs <;> rfl

theorem InRange.issueNext {s : State} (h : InRange s) : InRange s.issueNext := by
  refine State.issueNext_keeps h fun g cls q _ _ table ht => ?_
  have htags : table.map Entry.tag = s.table.map Entry.tag := by
    obtain rfl | ⟨e, -, -, rfl⟩ := ht
    · rfl
    · exact tags_map_issued _ _
  have hlen : table.length = s.table.length := by simpa using congrArg List.length htags
  exact ⟨h.faults, by simpa [hlen] using h.table, by simpa [htags] using h.tags, h.directory, s.shareAfter_le cls, h.ages,
    h.live, h.staged, h.priorities, h.threshold, h.noSource, h.params⟩

/-- A tick leaves descriptors and stops an age count at its top (R27). -/
theorem Region.ticked_eq (x : Region) : ∃ due, x.ticked =
    { x with age := if x.txn = .opened ∧ x.age < 65535 then x.age + 1 else x.age, expiryDue := due } := by
  unfold Region.ticked Config.ageTop
  split_ifs
  · exact ⟨_, rfl⟩
  · exact ⟨_, rfl⟩

theorem InRange.tick {s : State} (h : InRange s) : InRange s.tick := by
  have hx (r : RegionId) : (s.tick.region r).age ≤ 65535 ∧ (s.tick.region r).live = (s.region r).live ∧
      (s.tick.region r).staged = (s.region r).staged := by
    rw [s.region_tick r]
    split_ifs
    · obtain ⟨due, hd⟩ := Region.ticked_eq (s.region r)
      rw [hd]
      refine ⟨?_, rfl, rfl⟩
      dsimp only
      split_ifs with hc
      · omega
      · exact h.ages r
    · exact ⟨h.ages r, rfl, rfl⟩
  refine h.regions ?_ (fun r => (hx r).1) (fun r => ?_) (fun r => ?_)
  · rw [s.tick_eq]
  · rw [(hx r).2.1]; exact h.live r
  · rw [(hx r).2.2]; exact h.staged r

/-- The part after a reset is in its ranges, whatever its memory size (R1, R118). -/
theorem InRange.afterReset (msize : Fin 4) (selected : Bool) (pending : List Instr) :
    InRange (State.afterReset msize selected pending) := by
  have hx (r : RegionId) : (State.afterReset msize selected pending).region r = .reset := by
    simp [State.region, State.afterReset, Vector.get_eq_getElem]
  have hd : Descriptor.zero.InRange (memorySizeOf msize) :=
    ⟨rfl, by simp [Descriptor.zero, memorySizeOf], by decide, by decide, by decide⟩
  refine ⟨by simp [State.afterReset], by simp [State.afterReset], by simp [State.afterReset],
    by simp [State.afterReset], by simp [State.afterReset], fun r => ?_, fun r => ?_, fun r => ?_, fun n => ?_,
    by simp [State.afterReset, Notices.reset], ?_, ?_⟩
  · simp [hx r, Region.reset]
  · rw [hx r]; exact hd
  · rw [hx r]; exact hd
  · simp [State.afterReset, Notices.reset, Vector.get_eq_getElem]
  · simp [State.flag, State.afterReset, Notices.reset, Vector.get_eq_getElem]
  · exact (show Params.reset.InRange from
      ⟨by decide, by decide, by decide, by decide, by decide, by decide, by decide⟩)

theorem InRange.assertReset {s : State} (h : InRange s) : InRange s.assertReset := by
  unfold State.assertReset
  rw [State.abandonWork_eq]
  exact ⟨h.faults, Nat.zero_le _, List.nodup_nil, h.directory, Nat.zero_le _, h.ages, h.live, h.staged, h.priorities,
    h.threshold, h.noSource, h.params⟩

/-- A reply that changes a setting of the link's own keeps the ranges. -/
theorem InRange.setPriorityReply {s : State} (h : InRange s) (src p : Nat) :
    InRange (setPriorityReply src p s).state := by
  unfold Machine.setPriorityReply
  split_ifs with h1 h2
  · refine ⟨h.faults, h.table, h.tags, h.directory, h.share, h.ages, h.live, h.staged, fun n => ?_, h.threshold,
      h.noSource, h.params⟩
    simp only [done_state, Vector.get_eq_getElem, Vector.getElem_set]
    split_ifs
    · exact h2.2
    · exact h.priorities n
  · exact h
  · exact h

theorem InRange.setThresholdReply {s : State} (h : InRange s) (v : Nat) : InRange (setThresholdReply v s).state := by
  unfold Machine.setThresholdReply
  split_ifs with hv
  · exact ⟨h.faults, h.table, h.tags, h.directory, h.share, h.ages, h.live, h.staged, h.priorities, hv, h.noSource,
      h.params⟩
  · exact h

theorem InRange.setParamReply {s : State} (h : InRange s) (code v : Nat) : InRange (setParamReply code v s).state := by
  unfold Machine.setParamReply
  split
  · next p hp =>
    exact ⟨h.faults, h.table, h.tags, h.directory, h.share, h.ages, h.live, h.staged, h.priorities, h.threshold,
      h.noSource, h.params.set hp⟩
  · exact h

theorem InRange.popFaultReply {s : State} (h : InRange s) : InRange (popFaultReply s).state := by
  unfold Machine.popFaultReply
  split
  · exact h
  · next f rest hf =>
    refine ⟨?_, h.table, h.tags, h.directory, h.share, h.ages, h.live, h.staged, h.priorities, h.threshold, h.noSource,
      h.params⟩
    have hlen := h.faults
    rw [hf, List.length_cons] at hlen
    exact Nat.le_of_succ_le hlen

theorem InRange.claimReply {s : State} (h : InRange s) : InRange (claimReply s).state := by
  unfold Machine.claimReply
  split
  · refine ⟨h.faults, h.table, h.tags, h.directory, h.share, h.ages, h.live, h.staged, h.priorities, h.threshold, ?_,
      h.params⟩
    rw [State.flag_clearNotice, h.noSource, Bool.and_false]
  · exact h

theorem InRange.endFrame {s : State} (h : InRange s) : InRange s.endFrame := by
  unfold State.endFrame
  split_ifs
  · exact h
  · exact ⟨h.faults, h.table, h.tags, h.directory, h.share, h.ages, h.live, h.staged, h.priorities, h.threshold,
      h.noSource, h.params⟩

theorem InRange.stage {s : State} (h : InRange s) (r : RegionId) {d : Descriptor} (hd : d.InRange s.memorySize) :
    InRange (s.updRegion r fun x => { x with staged := d }) := by
  have hx (q : RegionId) : (s.updRegion r fun x => { x with staged := d }).region q =
      { s.region q with staged := if r = q then d else (s.region q).staged } := by
    rw [State.region_updRegion]
    split_ifs with k
    · rw [k]
    · rfl
  refine h.regions rfl (fun q => ?_) (fun q => ?_) (fun q => ?_) <;> rw [hx q]
  · exact h.ages q
  · exact h.live q
  · dsimp only
    split_ifs
    · exact hd
    · exact h.staged q

/-- Every command keeps the ranges. -/
theorem InRange.exec {c : Instr} {s t : State} (h : InRange s) (he : exec c s = .next t) : InRange t := by
  have hold : ∀ (t : State) (f : Frame), InRange t → InRange (t.holdFrame f) := fun _ f h => h.holdFrame f
  cases hc : setsState c with
  | false =>
    obtain ⟨u, hu, k⟩ := exec_kept hc s
    obtain rfl : u = t := by rw [hu] at he; exact (Host.Outcome.next.inj he)
    obtain k | ⟨v, f, k, rfl⟩ := k
    · exact k.inRange h
    · exact (k.inRange h).holdFrame f
  | true =>
    cases c
    case stage =>
      exact execStage_keeps hold h (fun r d _ hd => h.stage r ((h.staged r).withField hd)) he
    case format => exact execFormat_keeps hold h Kept.inRange (fun _ _ _ _ => h.formatStart _) he
    case setParam =>
      cases he
      exact State.takeCommand_keeps hold h (gated_keeps h fun _ => h.setParamReply _ _)
    case setPriority =>
      cases he
      exact State.takeCommand_keeps hold h (gated_keeps h fun _ => h.setPriorityReply _ _)
    case setThreshold =>
      cases he
      exact State.takeCommand_keeps hold h (gated_keeps h fun _ => h.setThresholdReply _)
    case popFault =>
      cases he
      exact State.takeCommand_keeps hold h (gated_keeps h fun _ => h.popFaultReply)
    case claim =>
      cases he
      exact State.takeCommand_keeps hold h h.claimReply
    case frameDiscard =>
      cases he
      split_ifs
      · exact h.endFrame
      · exact h
    case frameEnd =>
      cases he
      exact h.endFrame
    case resetAssert =>
      cases he
      exact h.assertReset
    case resetRelease msize selected =>
      cases he
      have k := InRange.afterReset msize selected s.pending
      exact ⟨k.faults, k.table, k.tags, k.directory, k.share, k.ages, k.live, k.staged, k.priorities, k.threshold,
        k.noSource, k.params⟩
    case firstIssueDelayExpiry =>
      cases he
      exact State.unlessReset_keeps h fun _ => ⟨h.faults, h.table, h.tags, h.directory, h.share, h.ages, h.live,
        h.staged, h.priorities, h.threshold, h.noSource, h.params⟩
    case upstreamRequest q =>
      exact execUpstreamRequest_keeps h Kept.inRange ⟨h.faults, h.table, h.tags, h.directory, h.share, h.ages, h.live,
        h.staged, h.priorities, h.threshold, h.noSource, h.params⟩ (fun hr hq => h.enter hr hq) he
    case downstreamIssue =>
      cases he
      exact State.unlessReset_keeps h fun _ => h.issueNext
    case tick =>
      cases he
      exact State.unlessReset_keeps h fun _ =>
        ((Kept.takeExpiries _).trans (.followOn _)).inRange h.tick
    all_goals exact absurd (show false = true from hc) Bool.false_ne_true

/-- Settles O55. -/
theorem everyStepKeepsTheRanges : Obligations.EveryStepKeepsTheRanges := by
  intro s t h hs
  exact step_keeps (fun _ q h => h.pending q) (fun _ _ _ h he => h.exec he) h hs

end Sys2Proof.Machine
end

section
/-! SUPPORT. The windows of the part (R5, R32, R55): what keeps them apart, and that every step does. -/

namespace Sys2Proof.Machine

/-- A new log area that passes FORMAT's check meets no anchor block and no live window (R55, step 5). -/
theorem State.areaMeets_false {s : State} {base size : Nat} (h : s.areaMeets base size = false) :
    base + size ≤ s.memorySize - 64 ∧ ∀ r, (s.region r).live.enable = true →
      spansMeet base size (s.region r).live.base (32 * (s.region r).live.size) = false := by
  simp only [State.areaMeets, Bool.or_eq_false_iff, decide_eq_false_iff_not, Nat.not_lt, List.any_eq_false,
    Bool.and_eq_true, not_and, Bool.not_eq_true] at h
  exact ⟨h.1, fun r => h.2 r (mem_allRegions r)⟩

/-- FORMAT's new log area stands apart from the windows (R55, R56). -/
theorem WindowLaw.formatStart {s : State} (h : WindowLaw s) {base units : Nat} (hb : base % 4096 = 0) (h2 : 2 ≤ units)
    (h512 : units ≤ 512) (hm : s.areaMeets base (4096 * units) = false) :
    WindowLaw (s.formatStart ⟨base, 4096 * units⟩) := by
  obtain ⟨hend, happart⟩ := State.areaMeets_false hm
  refine ⟨fun g hg => ?_, h.below, fun r g hr hg addr ha => ?_, h.apart, fun hd => ?_⟩
  · obtain rfl : (⟨base, 4096 * units⟩ : Geometry) = g := Option.some.inj hg
    have hN : (⟨base, 4096 * units⟩ : Geometry).blocks = 128 * units := by
      simp only [Geometry.blocks]
      omega
    rw [hN]
    exact ⟨hb, Nat.mul_mod_right _ _, by omega, by omega, hend⟩
  · obtain rfl : (⟨base, 4096 * units⟩ : Geometry) = g := Option.some.inj hg
    simp only [Descriptor.holds, Geometry.holds, Bool.and_eq_true, decide_eq_true_eq] at ha
    exact holds_apart (happart r hr) ha.2 ha.1
  · exact (hd.elim (fun k => by cases k) fun k => by cases k)

/-- The windows do not rest on a staged descriptor while the device serves. -/
theorem WindowLaw.stage {s : State} (h : WindowLaw s) (r : RegionId) (d : Descriptor) (ha : s.admitsAll = true) :
    WindowLaw (s.updRegion r fun x => { x with staged := d }) := by
  have hl (q : RegionId) : ((s.updRegion r fun x => { x with staged := d }).region q).live = (s.region q).live := by
    rw [State.region_updRegion]
    split_ifs with k
    · rw [k]
    · rfl
  refine ⟨h.ring, fun q => ?_, fun q g => ?_, fun q p => ?_, fun hd => ?_⟩
  · rw [hl q]; exact h.below q
  · rw [hl q]; exact h.area q g
  · rw [hl q, hl p]; exact h.apart q p
  · have : s.device = .run ∨ s.device = .nolog ∨ s.device = .logFault := (admitsAll_iff s).mp ha
    simp only [State.updRegion] at hd
    obtain k | k := hd <;> simp [k] at this

theorem WindowLaw.tick {s : State} (h : WindowLaw s) : WindowLaw s.tick := by
  have hx (r : RegionId) : (s.tick.region r).live = (s.region r).live ∧
      (s.tick.region r).staged = (s.region r).staged := by
    rw [s.region_tick r]
    split_ifs
    · obtain ⟨due, hd⟩ := Region.ticked_eq (s.region r)
      rw [hd]
      exact ⟨rfl, rfl⟩
    · exact ⟨rfl, rfl⟩
  refine h.congr (fun r => (hx r).1) (fun r => (hx r).2) ?_ ?_ fun k => ?_
  · rw [s.tick_eq]
  · rw [s.tick_eq]
  · rwa [s.tick_eq] at k

theorem WindowLaw.issueNext {s : State} (h : WindowLaw s) : WindowLaw s.issueNext :=
  State.issueNext_keeps h fun _ _ _ _ _ _ _ => h.congr (fun _ => rfl) (fun _ => rfl) rfl rfl id

theorem WindowLaw.assertReset {s : State} (h : WindowLaw s) : WindowLaw s.assertReset := by
  unfold State.assertReset
  rw [State.abandonWork_eq]
  exact h.congr (fun _ => rfl) (fun _ => rfl) rfl rfl id

/-- A region's context after a reset (R1). -/
theorem State.region_afterReset (msize : Fin 4) (selected : Bool) (pending : List Instr) (r : RegionId) :
    (State.afterReset msize selected pending).region r = .reset := by
  simp [State.region, State.afterReset, Vector.get_eq_getElem]

theorem WindowLaw.afterReset (msize : Fin 4) (selected : Bool) (pending : List Instr) :
    WindowLaw (State.afterReset msize selected pending) := by
  have disabled (r : RegionId) : ((State.afterReset msize selected pending).region r).live.enable = false := by
    rw [State.region_afterReset]
    rfl
  refine ⟨?_, fun r hr => ?_, fun r _ hr => ?_, fun q _ _ hq => ?_, fun _ r => ?_⟩
  · rintro g ⟨⟩
  · rw [disabled r] at hr; cases hr
  · rw [disabled r] at hr; cases hr
  · rw [disabled q] at hq; cases hq
  · rw [State.region_afterReset]
    exact ⟨rfl, rfl⟩

theorem WindowLaw.stable : Stable WindowLaw where
  kept k h := k.reg.windows h
  settings k h := by
    obtain ⟨_, _, _, _, _, _, rfl⟩ := k
    exact h.congr (fun _ => rfl) (fun _ => rfl) rfl rfl id
  stage r d ha h := h.stage r d ha
  format hb h2 h512 hm h := h.formatStart hb h2 h512 hm
  answered _ h := h.congr (fun _ => rfl) (fun _ => rfl) rfl rfl id
  entered _ _ h := h.congr (fun _ => rfl) (fun _ => rfl) rfl rfl id
  issueNext h := h.issueNext
  tick h := h.tick
  assertReset h := h.assertReset
  afterReset msize selected pending _ :=
    (WindowLaw.afterReset msize selected pending).congr (fun _ => rfl) (fun _ => rfl) rfl rfl id

/-- Settles O57. -/
theorem everyStepKeepsTheWindowsApart : Obligations.EveryStepKeepsTheWindowsApart :=
  fun _ _ h hs => WindowLaw.stable.step h hs

end Sys2Proof.Machine
end

section
/-! SUPPORT. Same-line order (R155): what keeps it beside the operations of `Kept`, and that every step does. -/

namespace Sys2Proof.Machine

/-- The tags of the table are distinct, and same-line order holds. -/
def LineOrdered (s : State) : Prop := s.tags.Nodup ∧ LineLaw s

/-- A new entry has not started, and its tag is new. -/
theorem LineOrdered.enter {s : State} (h : LineOrdered s) (q : HostRequest) (hq : s.entry q.tag = none) :
    LineOrdered { s with table := s.table ++ [HostRequest.newEntry q] } := by
  have hnew : q.tag ∉ s.table.map Entry.tag := (s.entry_eq_none_iff q.tag).mp hq
  constructor
  · simp only [State.tags, List.map_append, List.nodup_append]
    refine ⟨h.1, by simp, ?_⟩
    rintro g hg g' hg' rfl
    obtain rfl : g = q.tag := by simpa [HostRequest.newEntry] using hg'
    exact hnew hg
  · refine List.pairwise_append.mpr ⟨h.2, by simp, fun a _ b hb _ => ?_⟩
    obtain rfl : b = HostRequest.newEntry q := by simpa using hb
    rfl

/-- An entry that has started may be ISSUED. -/
theorem LineOrdered.issue {s t : State} (h : LineOrdered s) {e : Entry} (he : e ∈ s.table) (hr : e.state = .ready)
    (ht : t.table = s.table.map fun x => if x.tag = e.tag then { x with state := .issued } else x) : LineOrdered t := by
  constructor
  · simp only [State.tags, ht, tags_map_issued]
    exact h.1
  · simp only [LineLaw, ht, List.pairwise_map]
    refine List.Pairwise.imp_of_mem (fun {a b} _ hb k => ?_) h.2
    split_ifs with h1 h2 h2
    · intro j
      rw [eq_of_tag h.1 hb he h2] at k j
      rw [k j] at hr
      cases hr
    · exact k
    · intro j
      rw [eq_of_tag h.1 hb he h2] at k j
      rw [k j] at hr
      cases hr
    · exact k

theorem LineOrdered.issueNext {s : State} (h : LineOrdered s) : LineOrdered s.issueNext := by
  refine State.issueNext_keeps h fun g cls q _ _ table ht => ?_
  obtain rfl | ⟨e, he, hr, rfl⟩ := ht
  · exact h
  · exact h.issue he hr rfl

theorem LineOrdered.of_empty {s : State} (h : s.table = []) : LineOrdered s := by
  constructor
  · simp [State.tags, h]
  · simp [LineLaw, h]

theorem LineOrdered.stable : Stable LineOrdered where
  kept k h := ⟨k.sub.nodup h.1, k.line h.1 h.2⟩
  settings k h := by
    obtain ⟨_, _, _, _, _, _, rfl⟩ := k
    exact h
  stage _ _ _ h := h
  format _ _ _ _ h := h
  answered _ h := h
  entered q hq h := h.enter q hq
  issueNext h := h.issueNext
  tick h := by
    rw [State.tick_eq]
    exact h
  assertReset {s} h := .of_empty (by rw [State.assertReset, State.abandonWork_eq]; rfl)
  afterReset _ _ _ _ := .of_empty rfl

end Sys2Proof.Machine
end

section
/-! SUPPORT. What follows on an event leaves nothing due (R85, R86, R130, R144, R155), and no command brings about what it
leaves undone. -/

namespace Sys2Proof.Machine

/-! ## When an entry may start -/

/-- Some QUARANTINED tag holds an address that satisfies a test. -/
theorem State.anyTag_quarantinedAt (s : State) (p : Nat → Bool) :
    s.anyTag (Tag.quarantinedAt p) = true ↔ ∃ g a, s.tag g = .quarantined a ∧ p a = true := by
  simp only [State.anyTag, List.any_eq_true]
  constructor
  · rintro ⟨g, -, h⟩
    unfold Tag.quarantinedAt at h
    split at h
    · next a ha => exact ⟨g, a, ha, h⟩
    · cases h
  · rintro ⟨g, a, hg, h⟩
    exact ⟨g, mem_allTags g, by rw [hg]; exact h⟩

/-- Table tags are distinct: the older entries of a standing entry carry other tags. -/
theorem Stands.older_ne {s : State} (h : InRange s) {pre post : List Entry} {e : Entry} (hs : Stands s pre e post) :
    ∀ x ∈ pre, x.tag ≠ e.tag := by
  have hn := h.tags
  rw [hs, List.map_append, List.map_cons, List.nodup_append] at hn
  intro x hx
  exact hn.2.2 x.tag (List.mem_map_of_mem hx) e.tag (by simp)

theorem Stands.younger_ne {s : State} (h : InRange s) {pre post : List Entry} {e : Entry} (hs : Stands s pre e post) :
    ∀ x ∈ post, x.tag ≠ e.tag := by
  have hn := h.tags
  rw [hs, List.map_append, List.map_cons, List.nodup_append, List.nodup_cons] at hn
  intro x hx hxe
  exact hn.2.1.1 (hxe ▸ List.mem_map_of_mem hx)

/-- An entry may start exactly when it waits for its line and its line is clear (R155). -/
theorem State.mayStart_iff {s : State} (h : InRange s) {pre post : List Entry} {e : Entry} (hs : Stands s pre e post) :
    s.mayStart e = true ↔ e.state = .waitOrder ∧ LineClear s pre e := by
  have older : s.olderSameLine e = true ↔ ∃ x ∈ pre, lineOf x.addr = lineOf e.addr := by
    unfold State.olderSameLine
    rw [hs, List.takeWhile_append_of_pos (by simpa using hs.older_ne h), List.takeWhile_cons_of_neg (by simp)]
    simp
  have quarantine : s.lineQuarantined e = true ↔ ∃ g a, s.tag g = .quarantined a ∧ lineOf a = lineOf e.addr := by
    simp [State.lineQuarantined, State.anyTag_quarantinedAt]
  simp only [State.mayStart, Bool.and_eq_true, beq_iff_eq, Bool.not_eq_true', ← Bool.not_eq_true, older, quarantine,
    LineClear, and_assoc]
  simp

/-- With distinct tags, an update under a standing entry's tag is of that entry alone. -/
theorem State.updEntry_table_of_stands {s : State} (h : InRange s) {pre post : List Entry} {e : Entry}
    (hs : Stands s pre e post) (f : Entry → Entry) : (s.updEntry e.tag f).table = pre ++ f e :: post := by
  have others {l : List Entry} (hl : ∀ x ∈ l, x.tag ≠ e.tag) : l.map (fun x => if x.tag = e.tag then f x else x) = l :=
    (List.map_congr_left fun x hx => if_neg (hl x hx)).trans (List.map_id' l)
  show s.table.map _ = _
  rw [hs, List.map_append, List.map_cons, if_pos rfl, others (hs.older_ne h), others (hs.younger_ne h)]

/-- A start leaves the older and the younger entries, and the entry itself answered or started (R155, R156). -/
theorem State.startEntry_table {s : State} (h : InRange s) {pre post : List Entry} {e : Entry} (hs : Stands s pre e post) :
    (s.startEntry e).table = pre ++ post ∨
      ∃ e', e'.state ≠ .waitOrder ∧ e'.tag = e.tag ∧ (s.startEntry e).table = pre ++ e' :: post := by
  obtain ⟨reason, k⟩ | ⟨st, hd, hst, k⟩ := startEntry_cases s e
  · rw [k]
    exact .inl (State.table_answer_of_stands h hs _ _)
  · refine .inr ⟨{ e with cls := some (s.classify e.addr), state := st, handling := hd }, hst, rfl, ?_⟩
    rw [k]
    exact State.updEntry_table_of_stands h hs _

theorem State.tag_startEntry (s : State) (e : Entry) (g : DownTag) : (s.startEntry e).tag g = s.tag g := by
  obtain ⟨reason, k⟩ | ⟨st, hd, -, k⟩ := startEntry_cases s e
  · rw [k, State.answerError, State.answer_update]
    rfl
  · rw [k]
    rfl

/-! ## The pass over the table -/

theorem NoneStarts.nil (s : State) : NoneStarts s [] := by
  intro older e younger h
  simp at h

/-- None of a list of entries starts when none before the last does, and the last may not. -/
theorem NoneStarts.concat {s : State} {es : List Entry} {e : Entry} (h : NoneStarts s es)
    (he : e.state = .waitOrder → ¬LineClear s es e) : NoneStarts s (es ++ [e]) := by
  intro older x younger hx
  obtain rfl | ⟨y, z, rfl⟩ := List.eq_nil_or_concat younger
  · obtain ⟨rfl, hxe⟩ := List.append_inj' hx rfl
    obtain rfl : e = x := by simpa using hxe
    exact he
  · rw [List.concat_eq_append, ← List.cons_append, ← List.append_assoc] at hx
    exact h older x y (List.append_inj' hx rfl).1

/-- Which entries start rests on the quarantined tags. -/
theorem NoneStarts.congr {s t : State} {es : List Entry} (h : NoneStarts s es)
    (hq : ∀ g a, s.tag g = .quarantined a → t.tag g = .quarantined a) : NoneStarts t es :=
  fun older e younger hx he k => h older e younger hx he ⟨k.1, fun g a hg => k.2 g a (hq g a hg)⟩

/-- What a test for start does to a standing entry: nothing when its line is not clear, and otherwise its start. -/
theorem State.startDue_of_stands {s : State} (h : InRange s) {pre post : List Entry} {e : Entry}
    (hs : Stands s pre e post) :
    (e.state = .waitOrder ∧ LineClear s pre e) ∧ s.startDue e.tag = s.startEntry e ∨
      (e.state = .waitOrder → ¬LineClear s pre e) ∧ s.startDue e.tag = s := by
  unfold State.startDue
  rw [State.entry_of_stands h hs]
  dsimp only
  split_ifs with hm
  · exact .inl ⟨(State.mayStart_iff h hs).mp hm, rfl⟩
  · exact .inr ⟨fun k j => hm ((State.mayStart_iff h hs).mpr ⟨k, j⟩), rfl⟩

/-- The rest of the pass over the table, behind entries of which none may start, leaves none that may (R155). -/
theorem State.foldl_startDue_noneStarts (rest : List Entry) :
    ∀ {s : State} {pre : List Entry}, InRange s → s.table = pre ++ rest → NoneStarts s pre →
      NoneStarts ((rest.map Entry.tag).foldl State.startDue s) ((rest.map Entry.tag).foldl State.startDue s).table := by
  induction rest with
  | nil =>
    intro s pre _ ht hn
    rw [List.append_nil] at ht
    rw [List.map_nil, List.foldl_nil, ht]
    exact hn
  | cons e rest ih =>
    intro s pre h hs hn
    rw [List.map_cons, List.foldl_cons]
    have h' : InRange (s.startDue e.tag) := (Kept.startDue s e.tag).inRange h
    obtain ⟨-, k⟩ | ⟨hc, k⟩ := State.startDue_of_stands h hs
    · rw [k] at h' ⊢
      have hn' : NoneStarts (s.startEntry e) pre := hn.congr fun g a hg => by rwa [State.tag_startEntry]
      obtain ht | ⟨e', he', -, ht⟩ := State.startEntry_table h hs
      · exact ih h' ht hn'
      · exact ih h' (by rw [ht, List.append_assoc]; rfl) (hn'.concat fun j => absurd j he')
    · rw [k]
      exact ih h (by rw [hs, List.append_assoc]; rfl) (hn.concat hc)

/-- After the pass over the table no entry of it may start (R155). -/
theorem State.startEntries_noneStarts {s : State} (h : InRange s) : NoneStarts s.startEntries s.startEntries.table :=
  State.foldl_startDue_noneStarts s.table (pre := []) h rfl (NoneStarts.nil s)

end Sys2Proof.Machine
end

section
/-! SUPPORT. The four steps after the starts of an event (R85, R86, R134, R144): what each changes, and that together they
leave nothing due. -/

namespace Sys2Proof.Machine

/-- Two updates of one region's context are one. -/
theorem State.updRegion_updRegion (s : State) (r : RegionId) (f g : Region → Region) :
    (s.updRegion r f).updRegion r g = s.updRegion r fun x => g (f x) := by
  simp only [State.updRegion, State.region, Vector.get_eq_getElem, Vector.getElem_set_self, Vector.set_set]

/-! ## What each step changes -/

/-- Reading a record hands reads to the rollback class and sets the engine's record fields only (R88). -/
theorem State.readRecord_shape (s : State) : ∃ e q, s.readRecord = { s with
    engine := e, dport := { s.dport with rollQueue := q } } ∧ e.walk = s.engine.walk ∧ e.queue = s.engine.queue ∧
      e.drain = s.engine.drain := by
  unfold State.readRecord
  split
  · exact ⟨s.engine, s.dport.rollQueue, rfl, rfl, rfl, rfl⟩
  · exact ⟨_, _, rfl, rfl, rfl, rfl⟩

/-- A walk in DRAINING that passes on changes its sub-state, the record being read and the rollback class (R86). -/
theorem State.startWalking_shape (s : State) (r : RegionId) : ∃ e q, s.startWalking r = { s with
    regions := (s.setSub r .walking).regions, engine := e, dport := { s.dport with rollQueue := q } } ∧
      e.walk = s.engine.walk ∧ e.queue = s.engine.queue ∧ e.drain = s.engine.drain :=
  (s.setSub r .walking).readRecord_shape

/-- The start of a walk makes the engine BUSY, and changes its region's sub-state and the rollback class (R85). -/
theorem State.startWalk_shape (s : State) (r : RegionId) : ∃ x e q, s.startWalk r = { s with
    regions := (s.setSub r x).regions, engine := e, dport := { s.dport with rollQueue := q } } ∧ e.walk = some r := by
  unfold State.startWalk
  extract_lets drain t
  split_ifs
  · obtain ⟨e, q, hk, hw, -, -⟩ := t.startWalking_shape r
    refine ⟨.walking, e, q, ?_, hw⟩
    have hr : (t.setSub r .walking).regions = (s.setSub r .walking).regions :=
      (congrArg State.regions (State.updRegion_updRegion _ r _ _)).trans rfl
    rw [hk, hr]
    rfl
  · exact ⟨.draining, t.engine, s.dport.rollQueue, rfl, rfl⟩

/-- The start of an anchor write changes the anchor write in progress and the anchor class (R52). -/
theorem State.startAnchor_shape (s : State) (p : AnchorPurpose) : ∃ a q, s.startAnchor p = { s with
    log := { s.log with anchor := a }, dport := { s.dport with anchorQueue := q } } ∧
      (s.log.geometry ≠ none → ∃ w, a = some w ∧ w.purpose = p) := by
  unfold State.startAnchor
  split
  · next h => exact ⟨s.log.anchor, s.dport.anchorQueue, rfl, fun k => absurd h k⟩
  · exact ⟨_, _, rfl, fun _ => ⟨_, rfl, rfl⟩⟩

/-- The end of recovery changes the anchor write in progress or the mark that one is wanted, and the anchor class
(R134). -/
theorem State.endRecovery_shape (s : State) : ∃ a w q, s.endRecovery = { s with
    log := { s.log with anchor := a, recoveryWanted := w }, dport := { s.dport with anchorQueue := q } } ∧
      (s.log.geometry ≠ none → ∃ x, a = some x ∧ (x.purpose = .recovery ∨ w = true)) := by
  obtain ⟨ha, k⟩ | ⟨x, ha, ⟨hx, k⟩ | ⟨-, k⟩⟩ := s.endRecovery_cases
  · obtain ⟨a, q, h, hw⟩ := s.startAnchor_shape .recovery
    refine ⟨a, s.log.recoveryWanted, q, k.trans h, fun hg => ?_⟩
    obtain ⟨w, hw, hp⟩ := hw hg
    exact ⟨w, hw, .inl hp⟩
  · exact ⟨s.log.anchor, s.log.recoveryWanted, s.dport.anchorQueue, k, fun _ => ⟨x, ha, .inl hx⟩⟩
  · exact ⟨s.log.anchor, true, s.dport.anchorQueue, k, fun _ => ⟨x, ha, .inr rfl⟩⟩

/-- The end of SETTLING leaves QUIESCING's phase SETTLING, and changes the Power-Fail Controller, the device state, the
anchor write and the anchor class (R144 to R147). -/
theorem State.endSettling_shape (s : State) : ∃ d p a q, s.endSettling = { s with
    device := d, powerFail := p, log := { s.log with anchor := a }, dport := { s.dport with anchorQueue := q } } ∧
      (d = s.device ∨ d = .halted) ∧ p.phase ≠ .settling := by
  unfold State.endSettling
  extract_lets t
  split_ifs
  · obtain ⟨a, q, h, -⟩ := t.startAnchor_shape .closing
    exact ⟨s.device, t.powerFail, a, q, h, .inl rfl, by simp [t]⟩
  · exact ⟨.halted, t.halt.powerFail, s.log.anchor, s.dport.anchorQueue, rfl, .inr rfl, by simp [State.halt]⟩

/-! ## The clauses of `NothingDue` after each step -/

/-- No walk may start (R85). -/
def NoWalkDue (s : State) : Prop :=
  s.device = .run ∨ s.device = .restoring → s.engine.walk = none → s.engine.queue = []

/-- No walk in DRAINING is through with its drain (R86). -/
def NoDrainDue (s : State) : Prop :=
  ∀ r, s.engine.walk = some r → s.device = .run ∨ s.device = .restoring → (s.region r).txn = .rollingBack →
    (s.region r).sub = .draining → s.engine.drain ≠ [] ∨ WindowQuarantined s r

/-- Recovery has not ended without its anchor write (R134). -/
def NoRecoveryDue (s : State) : Prop :=
  s.inReset = false → s.device = .restoring → s.engine.queue = [] → s.engine.walk = none → s.log.geometry ≠ none →
    ∃ a, s.log.anchor = some a ∧ (a.purpose = .recovery ∨ s.log.recoveryWanted = true)

theorem NothingDue.iff (s : State) : NothingDue s ↔ NoneStarts s s.table ∧ NoWalkDue s ∧ NoDrainDue s ∧
    NoRecoveryDue s ∧ (s.inReset = false → s.device = .quiescing → s.powerFail.phase = .settling → ¬Settled s) :=
  ⟨fun h => ⟨h.starts, h.walks, h.drains, h.recovery, h.settling⟩, fun h => ⟨h.1, h.2.1, h.2.2.1, h.2.2.2.1, h.2.2.2.2⟩⟩

theorem State.nextWalk_noWalkDue (s : State) : NoWalkDue s.nextWalk := by
  intro hd hw
  obtain ⟨r, rest, -, -, -, k⟩ | ⟨hn, k⟩ := s.nextWalk_cases <;> rw [k] at hd hw ⊢
  · obtain ⟨x, e, q, h, he⟩ := s.startWalk_shape r
    rw [h] at hw
    cases he.symm.trans hw
  · rcases hn with hn | hn | hn
    · rw [(s.working_iff).mpr hd] at hn
      cases hn
    · exact absurd hw hn
    · exact hn

theorem State.nextWalk_noneStarts {s : State} (h : NoneStarts s s.table) : NoneStarts s.nextWalk s.nextWalk.table := by
  obtain ⟨r, rest, -, -, -, k⟩ | ⟨-, k⟩ := s.nextWalk_cases <;> rw [k]
  · obtain ⟨x, e, q, hk, -⟩ := s.startWalk_shape r
    rw [hk]
    exact h.congr fun _ _ hg => hg
  · exact h

/-- A walk's window is clear or not whatever its sub-state and the engine are. -/
theorem State.drainOver_false {s : State} {r : RegionId} (h : s.drainOver r = false) :
    s.engine.drain ≠ [] ∨ WindowQuarantined s r := by
  simp only [State.drainOver, State.windowClear, Bool.and_eq_false_iff, Bool.or_eq_false_iff, Bool.not_eq_false'] at h
  obtain h | ⟨he, hq⟩ := h
  · exact .inl (by simpa using h)
  · obtain ⟨g, a, hg, ha⟩ := (s.anyTag_quarantinedAt _).mp hq
    exact .inr ⟨he, g, a, hg, ha⟩

theorem State.passDrain_noDrainDue (s : State) : NoDrainDue s.passDrain := by
  intro r hw hd _ hs
  obtain ⟨q, hwork, hq, hsub, -, k⟩ | ⟨hn, k⟩ := s.passDrain_cases <;> rw [k] at hw hd hs ⊢
  · obtain ⟨e, l, h, he, -, -⟩ := s.startWalking_shape q
    rw [h] at hw hs
    obtain rfl : q = r := Option.some.inj (hq.symm.trans (he.symm.trans hw))
    have : ((s.setSub q .walking).region q).sub = .draining := hs
    simp [State.setSub] at this
  · rcases hn r hw with hn | hn | hn
    · rw [(s.working_iff).mpr hd] at hn
      cases hn
    · exact absurd hs hn
    · exact State.drainOver_false hn

theorem State.passDrain_noWalkDue {s : State} (h : NoWalkDue s) : NoWalkDue s.passDrain := by
  obtain ⟨r, -, -, -, -, k⟩ | ⟨-, k⟩ := s.passDrain_cases <;> rw [k]
  · obtain ⟨e, q, hk, hw, hq, -⟩ := s.startWalking_shape r
    rw [hk]
    exact fun hd he => hq.trans (h hd (hw.symm.trans he))
  · exact h

theorem State.passDrain_noneStarts {s : State} (h : NoneStarts s s.table) :
    NoneStarts s.passDrain s.passDrain.table := by
  obtain ⟨r, -, -, -, -, k⟩ | ⟨-, k⟩ := s.passDrain_cases <;> rw [k]
  · obtain ⟨e, q, hk, -⟩ := s.startWalking_shape r
    rw [hk]
    exact h.congr fun _ _ hg => hg
  · exact h

theorem State.passRecovery_noRecoveryDue (s : State) : NoRecoveryDue s.passRecovery := by
  intro _ hd hq hw hg
  obtain ⟨-, k⟩ | ⟨hn, k⟩ := s.passRecovery_cases <;> rw [k] at hd hq hw hg ⊢
  · obtain ⟨a, w, q, h, hx⟩ := s.endRecovery_shape
    rw [h] at hg ⊢
    exact hx hg
  · rw [(s.recovered_iff).mpr ⟨hd, hq, hw⟩] at hn
    cases hn

/-- The clauses before it stand when recovery ends. -/
theorem State.passRecovery_keeps {s : State} (hs : NoneStarts s s.table) (hw : NoWalkDue s) (hd : NoDrainDue s) :
    NoneStarts s.passRecovery s.passRecovery.table ∧ NoWalkDue s.passRecovery ∧ NoDrainDue s.passRecovery := by
  obtain ⟨-, k⟩ | ⟨-, k⟩ := s.passRecovery_cases <;> rw [k]
  · obtain ⟨a, w, q, h, -⟩ := s.endRecovery_shape
    rw [h]
    exact ⟨hs.congr fun _ _ hg => hg, hw, hd⟩
  · exact ⟨hs, hw, hd⟩

/-- SETTLING is settled as R144 says. -/
theorem State.settled_iff (s : State) : s.settled = true ↔ Settled s := by
  have tags : s.anyTag Tag.isOutstanding = false ↔ ∀ g, (s.tag g).isOutstanding = false := by
    simp [State.anyTag, mem_allTags]
  simp [State.settled, Settled, tags, and_assoc]

/-- The end of SETTLING is the last of what follows: after it nothing is due. -/
theorem State.passSettling_nothingDue {s : State} (hs : NoneStarts s s.table) (hw : NoWalkDue s) (hd : NoDrainDue s)
    (hr : NoRecoveryDue s) : NothingDue s.passSettling := by
  rw [NothingDue.iff]
  obtain ⟨hq, -, -, k⟩ | ⟨hn, k⟩ := s.passSettling_cases <;> rw [k]
  · obtain ⟨d, p, a, q, h, hdev, hp⟩ := s.endSettling_shape
    rw [h]
    have idle : d ≠ .run ∧ d ≠ .restoring := by
      obtain rfl | rfl := hdev
      · simp [hq]
      · simp
    refine ⟨hs.congr fun _ _ hg => hg, fun k => ?_, fun r _ k => ?_, fun _ k => absurd k idle.2, fun _ _ k => absurd k hp⟩
    · exact absurd k (by simp [idle])
    · exact absurd k (by simp [idle])
  · exact ⟨hs, hw, hd, hr, fun _ h1 h2 h3 => hn ⟨h1, h2, (s.settled_iff).mpr h3⟩⟩

/-- What follows on an event leaves nothing due. -/
theorem State.followOn_nothingDue {s : State} (h : InRange s) : NothingDue s.followOn := by
  unfold State.followOn
  have hs := State.passDrain_noneStarts (State.nextWalk_noneStarts (State.startEntries_noneStarts h))
  obtain ⟨hs, hw, hd⟩ := State.passRecovery_keeps hs
    (State.passDrain_noWalkDue (State.nextWalk_noWalkDue s.startEntries)) (State.passDrain_noDrainDue _)
  exact State.passSettling_nothingDue hs hw hd (State.passRecovery_noRecoveryDue _)

end Sys2Proof.Machine
end

section
/-! SUPPORT. No command leaves undone what its event brings about: those that follow on end with nothing due, and the others
bring nothing about. -/

namespace Sys2Proof.Machine

/-! ## What rests on few parts of the state -/

/-- Nothing due rests on the table, the device, the engine, the walking regions, the log and what is outstanding. -/
theorem NothingDue.congr {s t : State} (h : NothingDue s) (starts : NoneStarts t t.table) (hd : t.device = s.device)
    (hi : t.inReset = s.inReset) (he : t.engine = s.engine) (hp : t.powerFail = s.powerFail) (hl : t.log = s.log)
    (hr : ∀ r, (t.region r).txn = .rollingBack → (s.region r).txn = .rollingBack ∧
      (t.region r).sub = (s.region r).sub ∧ (t.region r).live = (s.region r).live)
    (hq : ∀ g a, s.tag g = .quarantined a → t.tag g = .quarantined a) (hs : Settled t → Settled s) : NothingDue t where
  starts := starts
  walks := by rw [hd, he]; exact h.walks
  drains r hw hdev ht hsub := by
    obtain ⟨h1, h2, h3⟩ := hr r ht
    rw [he] at hw ⊢
    rw [hd] at hdev
    obtain k | ⟨ha, g, a, hg, hx⟩ := h.drains r hw hdev h1 (h2.symm.trans hsub)
    · exact .inl k
    · exact .inr ⟨by rw [h3]; exact ha, g, a, hq g a hg, by rw [h3]; exact hx⟩
  recovery := by rw [hi, hd, he, hl]; exact h.recovery
  settling := by
    rw [hi, hd, hp]
    exact fun h1 h2 h3 k => h.settling h1 h2 h3 (hs k)

theorem NothingDue.settings {s t : State} (h : NothingDue s) (k : SettingsOnly s t) : NothingDue t := by
  obtain ⟨_, _, _, _, _, _, rfl⟩ := k
  exact h.congr h.starts rfl rfl rfl rfl rfl (fun _ hx => ⟨hx, rfl, rfl⟩) (fun _ _ hg => hg) id

theorem NothingDue.holdFrame (t : State) (f : Frame) (h : NothingDue t) : NothingDue (t.holdFrame f) :=
  h.settings ((SettingsOnly.refl t).holdFrame f)

/-- Where the device is neither working nor in QUIESCING, only the starts can be due. -/
theorem NothingDue.of_device {s : State} (hs : NoneStarts s s.table) (h1 : s.device ≠ .run) (h2 : s.device ≠ .restoring)
    (h3 : s.device ≠ .quiescing) : NothingDue s where
  starts := hs
  walks k := absurd k (by simp [h1, h2])
  drains _ _ k := absurd k (by simp [h1, h2])
  recovery _ k := absurd k h2
  settling _ k := absurd k h3

/-! ## Commands that set region contexts -/

/-- The commands that set one region's context, and nothing else but the link's frame. -/
def setsContext : Instr → Bool
  | .stage _ _ _ | .applyNow _ | .applyAtClose _ | .applyAtBegin _ | .applyCancel _ | .beginTxn _ => true
  | _ => false

/-- One state is another with other contexts: no expiry comes due, and a region that is rolling back stays as it stands but
for its staged descriptor and pending apply. -/
def ContextsOnly (s t : State) : Prop :=
  ∃ regions link, t = { s with regions := regions, link := link } ∧ ∀ r,
    ((t.region r).expiryDue = true → (s.region r).expiryDue = true) ∧
    ((t.region r).txn = .rollingBack → (s.region r).txn = .rollingBack ∧ (t.region r).sub = (s.region r).sub ∧
      (t.region r).live = (s.region r).live)

theorem ContextsOnly.refl (s : State) : ContextsOnly s s := ⟨_, _, rfl, fun _ => ⟨id, fun h => ⟨h, rfl, rfl⟩⟩⟩

theorem ContextsOnly.trans {s t u : State} (a : ContextsOnly s t) (b : ContextsOnly t u) : ContextsOnly s u := by
  obtain ⟨_, _, rfl, ha⟩ := a
  obtain ⟨_, _, rfl, hb⟩ := b
  refine ⟨_, _, rfl, fun r => ⟨fun h => (ha r).1 ((hb r).1 h), fun h => ?_⟩⟩
  obtain ⟨h1, h2, h3⟩ := (hb r).2 h
  obtain ⟨k1, k2, k3⟩ := (ha r).2 h1
  exact ⟨k1, h2.trans k2, h3.trans k3⟩

theorem ContextsOnly.holdFrame {s t : State} (h : ContextsOnly s t) (f : Frame) : ContextsOnly s (t.holdFrame f) := by
  obtain ⟨_, _, rfl, h⟩ := h
  exact ⟨_, _, rfl, h⟩

theorem ContextsOnly.updRegion (s : State) (r : RegionId) (f : Region → Region)
    (he : (f (s.region r)).expiryDue = true → (s.region r).expiryDue = true)
    (ht : (f (s.region r)).txn = .rollingBack → (s.region r).txn = .rollingBack ∧
      (f (s.region r)).sub = (s.region r).sub ∧ (f (s.region r)).live = (s.region r).live) :
    ContextsOnly s (s.updRegion r f) := by
  refine ⟨_, _, rfl, fun q => ?_⟩
  rw [State.region_updRegion]
  split_ifs with h
  · subst h
    exact ⟨he, ht⟩
  · exact ⟨id, fun k => ⟨k, rfl, rfl⟩⟩

theorem ContextsOnly.setApply (s : State) (r : RegionId) (p : PendingApply) : ContextsOnly s (s.setApply r p) :=
  .updRegion s r _ id fun h => ⟨h, rfl, rfl⟩

/-- A staged descriptor becomes live in IDLE only. -/
theorem ContextsOnly.applyStaged {s : State} {r : RegionId} (h : (s.region r).txn = .idle) :
    ContextsOnly s (s.applyStaged r) :=
  .updRegion s r _ id fun k => by cases h.symm.trans k

theorem ContextsOnly.beginEnabled (r : RegionId) (s : State) : ContextsOnly s (beginEnabled r s).state := by
  unfold Machine.beginEnabled
  split_ifs
  · refine ContextsOnly.updRegion s r (fun x => x.begun) ?_ ?_ <;> rintro ⟨⟩
  · exact .refl s

theorem exec_contextsOnly {c : Instr} (hc : setsContext c = true) {s t : State} (he : exec c s = .next t) :
    ContextsOnly s t := by
  have hold : ∀ (t : State) (f : Frame), ContextsOnly s t → ContextsOnly s (t.holdFrame f) := fun _ f h => h.holdFrame f
  have hs := ContextsOnly.refl s
  cases c <;> cases hc
  case stage =>
    exact execStage_keeps hold hs (fun r d _ _ => .updRegion s r _ id fun k => ⟨k, rfl, rfl⟩) he
  all_goals
    cases he
    refine State.takeCommand_keeps hold hs (gated_keeps hs fun _ => onRegion_keeps hs fun r => ?_)
  case applyNow =>
    unfold applyNowReply
    split_ifs with h
    · exact .applyStaged h
    · exact hs
    · exact hs
  case applyAtClose =>
    unfold applyAtCloseReply
    split_ifs with h
    · exact .applyStaged h
    · exact .setApply s r _
    · exact .setApply s r _
  case applyAtBegin => exact .setApply s r _
  case applyCancel => exact .setApply s r _
  case beginTxn =>
    unfold beginReply
    split_ifs with _ h
    · exact hs
    · exact hs
    · exact (ContextsOnly.applyStaged (not_not.mp h)).trans (.beginEnabled r _)
    · exact .setApply s r _
    · exact .beginEnabled r s

theorem NothingDue.contexts {s t : State} (h : NothingDue s) (k : ContextsOnly s t) : NothingDue t := by
  obtain ⟨_, _, rfl, hr⟩ := k
  exact h.congr h.starts rfl rfl rfl rfl rfl (fun r => (hr r).2) (fun _ _ hg => hg) id

/-! ## An issue -/

theorem State.lowestFree_free {s : State} {g : DownTag} (h : s.lowestFree = some g) : s.tag g = .free := by
  simpa using List.find?_some h

/-- An issue makes its tag OUTSTANDING and leaves the others (R166). -/
theorem State.tag_issueRequest (s : State) (g : DownTag) (cls : IssueClass) (q : DownRequest) (g' : DownTag) :
    (s.issueRequest g cls q).tag g' =
      if g = g' then .outstanding q.owner cls q.op q.addr s.params.dto s.timebase.elapsed true else s.tag g' := by
  have leaves : (s.leaveClass cls q).tag g' = s.tag g' ∧ (s.leaveClass cls q).params = s.params ∧
      (s.leaveClass cls q).timebase = s.timebase := by
    unfold State.leaveClass
    split
    · exact ⟨rfl, rfl, rfl⟩
    · exact ⟨rfl, rfl, rfl⟩
    · exact ⟨rfl, rfl, rfl⟩
    · split <;> exact ⟨rfl, rfl, rfl⟩
  show ((s.leaveClass cls q).setTag g _).tag g' = _
  rw [State.tag_setTag, leaves.1]

/-- Entries that become ISSUED leave the others no readier. -/
theorem NoneStarts.issued {s : State} {es : List Entry} (h : NoneStarts s es) (g : HostTag) :
    NoneStarts s (es.map fun x => if x.tag = g then { x with state := .issued } else x) := by
  have addr (x : Entry) : (if x.tag = g then { x with state := .issued } else x).addr = x.addr := by
    split_ifs <;> rfl
  intro older e younger he hw hc
  obtain ⟨a, l, rfl, rfl, hl⟩ := List.map_eq_append_iff.mp he
  obtain ⟨b, c, rfl, hb, rfl⟩ := List.map_eq_cons_iff.mp hl
  have hbw : b.state = .waitOrder := by
    rw [← hb] at hw
    split_ifs at hw
    exact hw
  refine h a b c rfl hbw ⟨fun x hx => ?_, fun g' a' hg => ?_⟩
  · have := hc.1 _ (List.mem_map_of_mem hx)
    rwa [← hb, addr, addr] at this
  · have := hc.2 g' a' hg
    rwa [← hb, addr] at this

theorem NothingDue.issueNext {s : State} (h : NothingDue s) : NothingDue s.issueNext := by
  refine State.issueNext_keeps h fun g cls q hg _ table ht => ?_
  have tag (g' : DownTag) := s.tag_issueRequest g cls q g'
  have free := State.lowestFree_free hg
  have hq : ∀ g' a, s.tag g' = .quarantined a → (s.issueRequest g cls q).tag g' = .quarantined a := by
    intro g' a hx
    rw [tag, if_neg]
    · exact hx
    · rintro rfl
      cases free.symm.trans hx
  refine h.congr ?_ rfl rfl rfl rfl rfl (fun _ hx => ⟨hx, rfl, rfl⟩) hq fun hset => ?_
  · have stands : NoneStarts s table := by
      obtain rfl | ⟨e, -, -, rfl⟩ := ht
      · exact h.starts
      · exact h.starts.issued _
    exact stands.congr hq
  · have out : ((s.issueRequest g cls q).tag g).isOutstanding = false := hset.2.1 g
    rw [tag, if_pos rfl] at out
    cases out

/-! ## Every command -/

theorem NothingDue.assertReset (s : State) : NothingDue s.assertReset := by
  unfold State.assertReset
  rw [State.abandonWork_eq]
  exact ⟨NoneStarts.nil _, fun _ _ => rfl, fun _ k => (nomatch k), fun k => (nomatch k), fun k => (nomatch k)⟩

theorem NothingDue.afterReset (msize : Fin 4) (selected : Bool) (pending : List Instr) (n : Nat) :
    NothingDue { State.afterReset msize selected pending with freeCount := n } :=
  .of_device (NoneStarts.nil _) nofun nofun nofun

theorem NothingDue.beginFormatAnchors {s : State} (h : NothingDue s) : NothingDue s.beginFormatAnchors := by
  unfold State.beginFormatAnchors
  split_ifs with hf
  · obtain ⟨a, q, k, -⟩ := (s.updLog fun l => { l with formatPending := false }).startAnchor_shape .formatFirst
    have hd : s.device = .formatting := hf.1
    rw [k]
    exact .of_device (h.starts.congr fun _ _ hg => hg) (by simp [hd]) (by simp [hd]) (by simp [hd])
  · exact h

theorem NothingDue.nextWalk {s : State} (h : NothingDue s) : NothingDue s.nextWalk := by
  obtain ⟨r, rest, hw, hn, hq, -⟩ | ⟨-, k⟩ := s.nextWalk_cases
  · rw [h.walks ((s.working_iff).mp hw) hn] at hq
    cases hq
  · rwa [k]

theorem NothingDue.passDrain {s : State} (h : NothingDue s) : NothingDue s.passDrain := by
  have starts := State.passDrain_noneStarts h.starts
  have walks := State.passDrain_noWalkDue h.walks
  have drains := s.passDrain_noDrainDue
  obtain ⟨r, hwork, hw, -, -, k⟩ | ⟨-, k⟩ := s.passDrain_cases
  · rw [k] at starts walks drains ⊢
    obtain ⟨e, q, hk, he, -, -⟩ := s.startWalking_shape r
    have hd := (s.working_iff).mp hwork
    refine ⟨starts, walks, drains, fun _ _ _ j => ?_, fun _ j => ?_⟩
    · rw [hk] at j
      cases (he.trans hw).symm.trans j
    · rw [hk] at j
      obtain hd | hd := hd <;> cases hd.symm.trans j
  · rwa [k]

theorem NothingDue.passRecovery {s : State} (h : NothingDue s) : NothingDue s.passRecovery := by
  obtain ⟨starts, walks, drains⟩ := State.passRecovery_keeps h.starts h.walks h.drains
  refine ⟨starts, walks, drains, s.passRecovery_noRecoveryDue, ?_⟩
  obtain ⟨hr, k⟩ | ⟨-, k⟩ := s.passRecovery_cases
  · obtain ⟨a, w, q, hk, -⟩ := s.endRecovery_shape
    rw [k, hk]
    intro _ hq
    cases ((s.recovered_iff).mp hr).1.symm.trans hq
  · rw [k]
    exact h.settling

theorem NothingDue.passSettling {s : State} (h : NothingDue s) (hi : s.inReset = false) : NothingDue s.passSettling := by
  obtain ⟨hd, hp, hs, -⟩ | ⟨-, k⟩ := s.passSettling_cases
  · exact absurd ((s.settled_iff).mp hs) (h.settling hi hd hp)
  · rwa [k]

/-- What FORMAT does to the regions is kept from its start. -/
theorem Kept.formatRegions (s : State) (g : Geometry) : Kept (s.formatStart g) (s.takeFormat g) := by
  unfold State.takeFormat
  exact .after (.foldl _ Kept.formatRegion _ _) (.setLevel _)

/-- No command leaves anything due. -/
theorem NothingDue.exec {c : Instr} {s t : State} (hr : InRange s) (h : NothingDue s) (he : exec c s = .next t) :
    NothingDue t := by
  have hold := NothingDue.holdFrame
  have follow {u : State} (k : Kept s u) : NothingDue u.followOn := State.followOn_nothingDue (k.inRange hr)
  cases c
  case ident | readStatus | readLog | readRegion | readParam | readPending | readFault | unknownCommand | setParam |
      setPriority | setThreshold | popFault | claim | frameDiscard | frameEnd | firstIssueDelayExpiry =>
    exact h.settings (exec_settingsOnly rfl he)
  case stage | applyNow | applyAtClose | applyAtBegin | applyCancel | beginTxn =>
    exact h.contexts (exec_contextsOnly rfl he)
  all_goals cases he
  case commit =>
    refine State.takeCommand_keeps hold h (gated_keeps h fun _ => onRegion_keeps h fun r => ?_)
    unfold commitReply
    split_ifs
    · exact follow (.takeCommit s r)
    · exact h
  case abort =>
    refine State.takeCommand_keeps hold h (gated_keeps h fun _ => onRegion_keeps h fun r => ?_)
    unfold abortReply
    split_ifs
    · exact follow (.abortTxn s r)
    · exact h
  case retry =>
    refine State.takeCommand_keeps hold h (gated_keeps h fun _ => onRegion_keeps h fun r => ?_)
    unfold retryReply
    split_ifs with _ hf
    · exact h
    · exact follow (.queueFaulted s r hf)
    · exact h
  case format base units =>
    refine State.takeCommand_keeps hold h (gated_keeps h fun _ => ?_)
    obtain k | ⟨-, -, -, k⟩ := formatReply_cases base.toNat units.toNat s
    · rwa [k]
    · rw [k, done_state]
      exact State.followOn_nothingDue ((Kept.formatRegions s _).inRange (hr.formatStart _))
  case dportClear => exact State.takeCommand_keeps hold h (gated_keeps h fun _ => follow (.mapTags s _))
  case resetAssert => exact .assertReset s
  case resetRelease => exact .afterReset _ _ _ _
  case powerFailWarning =>
    refine State.unlessReset_keeps h fun _ => ?_
    split_ifs with hd
    · exact h
    · exact follow (.quiesce s fun k => hd (.inr k))
  case upstreamRequest q =>
    split_ifs with hq
    · unfold State.takeRequest
      split_ifs with hd
      · exact h.settings ⟨_, _, _, _, _, _, rfl⟩
      · exact State.followOn_nothingDue (hr.enter hq (by simpa using hd))
      · exact h.congr h.starts rfl rfl rfl rfl rfl (fun _ hx => ⟨hx, rfl, rfl⟩) (fun _ _ hg => hg) id
    · exact h
  case entryStart tag =>
    refine State.unlessReset_keeps h fun _ => ?_
    split
    · next e hte =>
      obtain rfl : e.tag = tag := by simpa using List.find?_some hte
      split_ifs with hm
      · exact follow (.startWaiting hte hm)
      · exact h
    · exact h
  case downstreamIssue => exact State.unlessReset_keeps h fun _ => h.issueNext
  case downstreamResponse tag ok data =>
    refine State.unlessReset_keeps h fun _ => ?_
    unfold State.respond
    split
    · exact h
    · exact follow (.setTag _ _ _)
    · exact follow ((Kept.setTag _ _ _).trans (.deliver _ _ _ _ _))
  case responseTimeout tag =>
    refine State.unlessReset_keeps h fun _ => ?_
    unfold State.timeout
    split
    · exact follow ((Kept.setTag _ _ _).trans (.expire _ _ _ _))
    · exact h
  case tick =>
    exact State.unlessReset_keeps h fun _ => State.followOn_nothingDue ((Kept.takeExpiries _).inRange hr.tick)
  case ageExpiry r =>
    refine State.unlessReset_keeps h fun _ => ?_
    split_ifs
    · exact follow (.expireAge s r)
    · exact h
  case chooseNextWork =>
    refine State.unlessReset_keeps h fun _ => ?_
    split_ifs
    · exact follow (.chooseWork s)
    · exact h
  case commitDrainComplete r =>
    refine State.unlessReset_keeps h fun _ => ?_
    split_ifs
    · exact follow (.commitPhase s r)
    · exact h
  case walkStart => exact State.unlessReset_keeps h fun _ => h.nextWalk
  case walkDrainComplete => exact State.unlessReset_keeps h fun _ => h.passDrain
  case formatAnchorWrites => exact State.unlessReset_keeps h fun _ => h.beginFormatAnchors
  case recoveryEnd => exact State.unlessReset_keeps h fun _ => h.passRecovery
  case settlingEnd => exact State.unlessReset_keeps h fun hi => h.passSettling hi

end Sys2Proof.Machine
end

section
/-! SUPPORT. No operation but the tick makes an expiry due (R28): `Calm s t` says that every expiry due in `t` was due in `s`;
this file follows it through the operations in the order of the model. -/

namespace Sys2Proof.Machine

/-- No expiry has come due. -/
def Calm (s t : State) : Prop := ∀ r, (t.region r).expiryDue = true → (s.region r).expiryDue = true

namespace Calm

theorem refl (s : State) : Calm s s := fun _ h => h

/-- The last of two operations first. -/
theorem after {s t u : State} (b : Calm t u) (a : Calm s t) : Calm s u := fun r h => a r (b r h)

theorem ite {s t u : State} {c : Prop} [Decidable c] (a : c → Calm s t) (b : ¬c → Calm s u) :
    Calm s (if c then t else u) := by
  split_ifs with h
  · exact a h
  · exact b h

/-- An operation that leaves the contexts, after another. -/
theorem same {s t u : State} (a : Calm s t) (h : u.regions = t.regions) : Calm s u :=
  fun r k => a r (by rwa [State.region_congr h] at k)

theorem of_eq {s t : State} (h : t.regions = s.regions) : Calm s t := fun r k => by rwa [State.region_congr h] at k

theorem setNotice (s : State) (n : Source) : Calm s (s.setNotice n) := of_eq rfl

theorem pushFault (s : State) (e : FaultEntry) : Calm s (s.pushFault e) := of_eq rfl

theorem setDevice (s : State) (d : DeviceState) : Calm s (s.setDevice d) := of_eq rfl

theorem updLog (s : State) (f : LogState → LogState) : Calm s (s.updLog f) := of_eq rfl

theorem updEngine (s : State) (f : Engine → Engine) : Calm s (s.updEngine f) := of_eq rfl

theorem updWriter (s : State) (f : LogWriter → LogWriter) : Calm s (s.updWriter f) := of_eq rfl

theorem dropPending (s : State) (r : RegionId) (lines : List Nat) : Calm s (s.dropPending r lines) := of_eq rfl

theorem foldl {α : Type} {f : State → α → State} (h : ∀ s a, Calm s (f s a)) (l : List α) (s : State) :
    Calm s (l.foldl f s) := by
  induction l generalizing s with
  | nil => exact refl s
  | cons a l ih => exact (ih _).after (h s a)

theorem updRegion (s : State) (r : RegionId) (f : Region → Region)
    (h : (f (s.region r)).expiryDue = true → (s.region r).expiryDue = true) : Calm s (s.updRegion r f) := by
  intro q
  rw [State.region_updRegion]
  split_ifs with k
  · subst k
    exact h
  · exact id

/-- An update that clears the mark of an expiry. -/
theorem cleared (s : State) (r : RegionId) (f : Region → Region) (h : (f (s.region r)).expiryDue = false) :
    Calm s (s.updRegion r f) := updRegion s r f fun k => absurd (h.symm.trans k) Bool.false_ne_true

/-! ## Entries and regions -/

theorem answer (s : State) (e : Entry) (reason : Reason) (data : List Word32) : Calm s (s.answer e reason data) := by
  intro r h
  rw [State.answer_update] at h
  simpa [State.region, Vector.get_eq_getElem] using h

theorem answerErrors (s : State) (es : List Entry) (reason : Entry → Reason) : Calm s (s.answerErrors es reason) :=
  foldl (fun s e => answer s e _ _) es s

theorem startEntry (s : State) (e : Entry) : Calm s (s.startEntry e) := by
  obtain ⟨reason, k⟩ | ⟨st, h, -, k⟩ := startEntry_cases s e <;> rw [k]
  · exact answer s e _ _
  · exact of_eq rfl

theorem setApply (s : State) (r : RegionId) (p : PendingApply) : Calm s (s.setApply r p) := updRegion s r _ id

theorem applyAtReturn (s : State) (r : RegionId) : Calm s (s.applyAtReturn r) := by
  unfold State.applyAtReturn
  split_ifs
  · exact updRegion s r _ id
  · exact (setApply s r .none).same rfl
  · exact refl s

theorem returnToIdle (s : State) (r : RegionId) (n : Word32 → Word32) : Calm s (s.returnToIdle r n) := by
  unfold State.returnToIdle
  extract_lets a b c
  have ha : Calm s a := cleared s r _ rfl
  have hc : Calm a c := updRegion b r _ id
  exact (foldl startEntry _ _).after ((applyAtReturn c r).after (hc.after ha))

theorem enterFaulted (s : State) (r : RegionId) : Calm s (s.enterFaulted r) := by
  unfold State.enterFaulted
  extract_lets a b
  have ha : Calm s a := cleared s r _ rfl
  exact (answerErrors b _ _).after ha

/-! ## The Log Manager and the ends of a transaction -/

theorem noteFree (s : State) (old : Nat) : Calm s (s.noteFree old) := by
  obtain ⟨_, _, h⟩ := s.noteFree_eq old
  rw [h]
  exact of_eq rfl

theorem startAnchor (s : State) (p : AnchorPurpose) : Calm s (s.startAnchor p) := by
  obtain ⟨_, _, h, -⟩ := s.startAnchor_shape p
  rw [h]
  exact of_eq rfl

theorem strideTrigger (s : State) : Calm s s.strideTrigger := by
  unfold State.strideTrigger
  exact ite (fun _ => ite (fun _ => of_eq rfl) fun _ => startAnchor s _) fun _ => refl s

theorem spaceEvent (s : State) : Calm s s.spaceEvent := by
  rw [State.spaceEvent_eq]
  exact of_eq rfl

theorem resolve (s : State) (r : RegionId) : Calm s (s.resolve r) := by
  unfold State.resolve
  exact ite (fun _ => of_eq rfl) fun _ => (strideTrigger _).after ((spaceEvent _).after (of_eq rfl))

theorem admitRecord (s : State) (r : RegionId) (first : Bool) (lines : Nat) : Calm s (s.admitRecord r first lines) := by
  have place : Calm s (s.placeAtHead (2 + lines)) := (noteFree _ _).after (of_eq rfl)
  unfold State.admitRecord
  exact ite (fun _ => place) fun _ => place

theorem dropWaitingGroups (s : State) (r : RegionId) : Calm s (s.dropWaitingGroups r) := by
  unfold State.dropWaitingGroups
  exact ite (fun _ => of_eq rfl) fun _ => of_eq rfl

theorem queueWalk (s : State) (r : RegionId) : Calm s (s.queueWalk r) :=
  (cleared s r (fun x =>
    { x with txn := .rollingBack, sub := .queued, drain := [], recordPhase := false, expiryDue := false }) rfl).same rfl

theorem abortTxn (s : State) (r : RegionId) : Calm s (s.abortTxn r) := by
  unfold State.abortTxn
  extract_lets a b
  have hb : Calm s b := (dropWaitingGroups a r).after (of_eq rfl)
  exact ite (fun _ => ((returnToIdle b r _).after hb).same rfl) fun _ =>
    (queueWalk _ r).after (hb.same rfl)

theorem completeCommit (s : State) (r : RegionId) : Calm s (s.completeCommit r) := by
  unfold State.completeCommit
  exact (setNotice _ _).after ((returnToIdle _ _ _).after (ite (fun _ => refl s) fun _ => resolve s r))

theorem stopOwner (s : State) (o : Owner) : Calm s (s.stopOwner o) := by
  rw [State.stopOwner_eq]
  exact of_eq rfl

theorem endWalk (s : State) : Calm s s.endWalk := by
  unfold State.endWalk
  exact (updEngine _ _).after (stopOwner _ _)

theorem completeWalk (s : State) (r : RegionId) : Calm s (s.completeWalk r) := by
  unfold State.completeWalk
  exact (endWalk _).after ((setNotice _ _).after ((returnToIdle _ _ _).after (resolve s r)))

theorem failWalk (s : State) (r : RegionId) (e : FaultEntry) : Calm s (s.failWalk r e) := by
  unfold State.failWalk
  exact (endWalk _).after ((enterFaulted _ _).after (pushFault _ _))

theorem logFaultRegion (s : State) (r : RegionId) : Calm s (s.logFaultRegion r) := by
  unfold State.logFaultRegion
  split
  · exact refl s
  · exact refl s
  · exact ite (fun _ => returnToIdle s r _) fun _ => enterFaulted s r
  · exact ite (fun _ => (setNotice _ _).after (returnToIdle _ _ _)) fun _ => enterFaulted s r
  · exact enterFaulted s r

theorem stopWriter (s : State) : Calm s s.stopWriter := by
  unfold State.stopWriter
  exact (updWriter _ _).after (stopOwner _ _)

theorem stopForLogFault (s : State) : Calm s s.stopForLogFault := by
  unfold State.stopForLogFault
  refine (foldl logFaultRegion _ _).after ((updEngine _ _).after ((endWalk _).after ((answerErrors _ _ _).after ?_)))
  exact (stopWriter _).after ((updLog _ _).after (setDevice _ _))

theorem logSideFailure (s : State) : Calm s s.logSideFailure := by
  unfold State.logSideFailure
  split
  · exact stopForLogFault s
  · exact (setNotice _ _).after (stopForLogFault s)
  · exact setDevice s _
  · exact refl s

/-! ## The Log Writer -/

theorem insertGroup (s : State) (g : Group) : Calm s (s.insertGroup g) := by
  unfold State.insertGroup
  exact ite (fun _ => of_eq rfl) fun _ => (updRegion _ _ _ id).after (of_eq rfl)

theorem startWriting (s : State) (b : Build) : Calm s (s.startWriting b) := by
  unfold State.startWriting
  split
  · exact of_eq rfl
  · exact of_eq rfl

theorem grant (s : State) (g : Group) : Calm s (s.grant g) := by
  unfold State.grant
  extract_lets x first p firstIndex record b s₁ s₂ s₃ s₄ s₅
  have h₁ : Calm s s₁ := admitRecord s _ _ _
  have h₂ : Calm s₁ s₂ := updRegion s₁ _ _ id
  have h₅ : Calm s s₅ := (h₂.after h₁).same rfl
  exact ite (fun _ => h₅.same rfl) fun _ => h₅.same rfl

theorem refuseFail (s : State) (g : Group) : Calm s (s.refuseFail g) := (answerErrors s _ _).same rfl

theorem refuse (s : State) (g : Group) : Calm s (s.refuse g) := by
  unfold State.refuse
  refine ite (fun _ => ?_) fun _ => refuseFail s g
  split
  · exact ite (fun _ => refuseFail s g) fun _ => of_eq rfl
  · exact refuseFail s g
  · exact (abortTxn _ _).after ((answerErrors s _ _).same rfl)

theorem askAdmission (s : State) (g : Group) : Calm s (s.askAdmission g) := by
  unfold State.askAdmission
  exact ite (fun _ => grant s g) fun _ => ite (fun _ => of_eq rfl) fun _ =>
    ite (fun _ => (startAnchor s _).same rfl) fun _ => refuse s g

theorem reevaluate (s : State) : Calm s s.reevaluate := by
  unfold State.reevaluate
  split
  · exact askAdmission s _
  · exact refl s

theorem serve (s : State) (r : RegionId) : Calm s (s.serve r) := by
  unfold State.serve
  dsimp only
  split
  · exact (askAdmission _ _).after (of_eq rfl)
  · exact (askAdmission _ _).after ((insertGroup _ _).after (of_eq rfl))

theorem takeClosing (s : State) (c : ClosingRequest) : Calm s (s.takeClosing c) := by
  unfold State.takeClosing
  exact (startWriting _ _).after ((noteFree _ _).after (of_eq rfl))

theorem chooseWork (s : State) : Calm s s.chooseWork := by
  unfold State.chooseWork
  split
  · exact of_eq rfl
  · split
    · exact takeClosing s _
    · refine ite (fun _ => refl s) fun _ => ?_
      split
      · exact serve s _
      · exact refl s

theorem recordDurable (s : State) (b : Build) : Calm s (s.recordDurable b) := by
  unfold State.recordDurable
  dsimp only
  split
  · exact (foldl (f := State.releaseWrite) (fun _ _ => of_eq rfl) _ _).after (of_eq rfl)
  · split
    · exact (completeCommit _ _).after (of_eq rfl)
    · exact (completeWalk _ _).after (of_eq rfl)
    · exact of_eq rfl

theorem builderExhausted (s : State) (b : Build) (addr : Option Nat) (seq : Word32) (n : Nat) :
    Calm s (s.builderExhausted b addr seq n) := (logSideFailure _).after (of_eq rfl)

theorem unitOutcome (s : State) (b : Build) (u : VerifiedUnit) (stage : VerifiedUnit → BuildStage) (seq : Word32)
    (done : State → State) (hd : Calm s (done s)) (addr : Nat) (outcome : Option Line) :
    Calm s (s.unitOutcome b u stage seq done addr outcome) := by
  unfold State.unitOutcome
  dsimp only
  split
  · exact of_eq rfl
  · exact of_eq rfl
  · exact of_eq rfl
  · exact builderExhausted s _ _ _ _
  · exact hd

theorem oldLineOutcome (s : State) (b : Build) (g : Group) (addr : Nat) (outcome : Option Line) :
    Calm s (s.oldLineOutcome b g addr outcome) := by
  unfold State.oldLineOutcome
  split
  · exact refl s
  · split
    · exact ite (fun _ => startWriting s _) fun _ => of_eq rfl
    · exact ite (fun _ => of_eq rfl) fun _ => builderExhausted s _ _ _ _

theorem writerOutcome (s : State) (addr : Nat) (outcome : Option Line) : Calm s (s.writerOutcome addr outcome) := by
  unfold State.writerOutcome
  split
  · exact refl s
  · split
    · split
      · exact oldLineOutcome s _ _ _ _
      · exact refl s
    · exact unitOutcome s _ _ _ _ _ (of_eq rfl) _ _
    · exact unitOutcome s _ _ _ _ _ (recordDurable s _) _ _
    · exact refl s

/-! ## Anchors and walks -/

theorem afterAnchor (s : State) : Calm s s.afterAnchor := by
  unfold State.afterAnchor
  exact ite (fun _ => (startAnchor _ _).after (of_eq rfl)) fun _ =>
    ite (fun _ => (strideTrigger _).after (of_eq rfl)) fun _ => refl s

theorem anchorSequel (s : State) (p : AnchorPurpose) : Calm s (s.anchorSequel p) := by
  unfold State.anchorSequel
  split
  · exact refl s
  · exact ite (fun _ => of_eq rfl) fun _ => refl s
  · exact ite (fun _ => startAnchor s _) fun _ => refl s
  · exact ite (fun _ => of_eq rfl) fun _ => refl s
  · exact ite (fun _ => of_eq rfl) fun _ => refl s

theorem anchorVerified (s : State) (a : AnchorWrite) : Calm s (s.anchorVerified a) :=
  (anchorSequel _ _).after ((afterAnchor _).after ((reevaluate _).after ((spaceEvent _).after
    ((noteFree _ _).after (of_eq rfl)))))

theorem anchorExhausted (s : State) (a : AnchorWrite) (n : Nat) : Calm s (s.anchorExhausted a n) := by
  unfold State.anchorExhausted
  exact ite (fun _ => ite (fun _ => of_eq rfl) fun _ => of_eq rfl) fun _ => (logSideFailure _).after (of_eq rfl)

theorem anchorOutcome (s : State) (addr : Nat) (outcome : Option Line) : Calm s (s.anchorOutcome addr outcome) := by
  unfold State.anchorOutcome
  split
  · exact refl s
  · dsimp only
    split
    · exact of_eq rfl
    · exact of_eq rfl
    · exact of_eq rfl
    · exact anchorExhausted s _ _
    · exact anchorVerified s _

theorem setSub (s : State) (r : RegionId) (x : SubState) : Calm s (s.setSub r x) := updRegion s r _ id

theorem readRecord (s : State) : Calm s s.readRecord := by
  obtain ⟨_, _, h, -⟩ := s.readRecord_shape
  rw [h]
  exact of_eq rfl

theorem startWalking (s : State) (r : RegionId) : Calm s (s.startWalking r) := (readRecord _).after (setSub s r _)

theorem startWalk (s : State) (r : RegionId) : Calm s (s.startWalk r) := by
  obtain ⟨x, _, _, h, -⟩ := s.startWalk_shape r
  rw [h]
  exact setSub s r x

theorem recordRestored (s : State) (r : RegionId) (h : Header) : Calm s (s.recordRestored r h) := by
  unfold State.recordRestored
  refine ite (fun _ => ?_) fun _ => (readRecord _).after (of_eq rfl)
  exact ((setSub _ r _).after (of_eq rfl)).same rfl

theorem restoreOutcome (s : State) (r : RegionId) (h : Header) (u : VerifiedUnit) (i addr : Nat)
    (outcome : Option Line) : Calm s (s.restoreOutcome r h u i addr outcome) := by
  unfold State.restoreOutcome
  dsimp only
  split
  · exact of_eq rfl
  · exact of_eq rfl
  · exact of_eq rfl
  · exact failWalk s _ _
  · unfold State.lineRestored
    split
    · exact recordRestored s _ _
    · exact of_eq rfl

theorem blockIn (s : State) (r : RegionId) (x : Nat) : Calm s (s.blockIn r x) := by
  unfold State.blockIn State.headerIn State.dataIn State.failCheck
  split
  · exact ite (fun _ => of_eq rfl) fun _ => failWalk s _ _
  · exact ite (fun _ => ite (fun _ => of_eq rfl) fun _ => failWalk s _ _) fun _ => refl s
  · exact refl s

theorem logBlockOutcome (s : State) (r : RegionId) (x addr : Nat) (outcome : Option Line) :
    Calm s (s.logBlockOutcome r x addr outcome) := by
  unfold State.logBlockOutcome
  split
  · exact refl s
  · dsimp only
    split
    · exact (blockIn _ _ _).after (of_eq rfl)
    · exact ite (fun _ => of_eq rfl) fun _ => failWalk s _ _

theorem rollbackOutcome (s : State) (addr : Nat) (outcome : Option Line) : Calm s (s.rollbackOutcome addr outcome) := by
  unfold State.rollbackOutcome
  split
  · split
    · exact restoreOutcome s _ _ _ _ _ _
    · exact logBlockOutcome s _ _ _ _
  · exact refl s

/-! ## The Start-up Controller -/

theorem loadScan (s : State) : Calm s s.loadScan := by
  unfold State.loadScan State.setLevel
  exact (updLog _ _).after ((updLog _ _).after (foldl (fun _ _ => updLog _ _) _ s))

theorem setFromTracker (s : State) (txn : TxnState) (sub : SubState) (r : RegionId) :
    Calm s (s.setFromTracker txn sub r) := by
  refine updRegion s r _ ?_
  split
  · exact id
  · exact fun h => absurd h Bool.false_ne_true

theorem scanEnd (s : State) : Calm s s.scanEnd := by
  unfold State.scanEnd
  exact (setDevice _ _).after ((updEngine _ _).after ((foldl (fun s r => setFromTracker s _ _ r) _ _).after (loadScan s)))

theorem scanExhausted (s : State) (addr n : Nat) : Calm s (s.scanExhausted addr n) := by
  unfold State.scanExhausted
  exact (setNotice _ _).after ((setDevice _ _).after ((stopOwner _ _).after
    ((foldl (fun s r => setFromTracker s _ _ r) _ _).after ((loadScan _).after (pushFault _ _)))))

theorem scanHere (s : State) : Calm s s.scanHere := by
  unfold State.scanHere
  split
  · next t h =>
    unfold State.scanReads at h
    split_ifs at h
    cases h
    exact of_eq rfl
  · exact scanEnd s

theorem scanOn (s : State) (size position : Nat) : Calm s (s.scanOn size position) := (scanHere _).after (of_eq rfl)

theorem scanRecord (s : State) (p : Nat) (x : Header) : Calm s (s.scanRecord p x) := by
  unfold State.scanRecord
  split
  · dsimp only
    split
    · exact (scanOn _ _ _).after (of_eq rfl)
    · exact scanEnd s
  · exact scanEnd s

theorem scanBlocksIn (s : State) : Calm s s.scanBlocksIn := by
  unfold State.scanBlocksIn
  refine ite (fun _ => ?_) fun _ => refl s
  split
  · unfold State.scanFirst
    dsimp only
    split_ifs
    · exact scanOn s _ _
    · exact scanEnd s
    · exact scanEnd s
    · exact of_eq rfl
    · exact scanEnd s
  · unfold State.scanHeader
    dsimp only
    split_ifs
    · exact scanRecord s _ _
    · exact of_eq rfl
    · exact scanEnd s
  · unfold State.scanData
    exact ite (fun _ => scanRecord s _ _) fun _ => scanEnd s
  · exact refl s

theorem scanOutcome (s : State) (addr : Nat) (outcome : Option Line) : Calm s (s.scanOutcome addr outcome) := by
  unfold State.scanOutcome
  split
  · exact refl s
  · dsimp only
    split
    · exact (scanBlocksIn _).after (of_eq rfl)
    · exact ite (fun _ => of_eq rfl) fun _ => scanExhausted s _ _

theorem pushSlotFault (s : State) (slot : Fin 2) : Calm s (s.pushSlotFault slot) := by
  unfold State.pushSlotFault
  split
  · exact of_eq rfl
  · exact refl s

theorem startupLogFault (s : State) : Calm s s.startupLogFault := by
  have h : Calm s ((s.pushSlotFault 0).pushSlotFault 1) := (pushSlotFault _ _).after (pushSlotFault s _)
  unfold State.startupLogFault
  refine (setNotice _ _).after ((setDevice _ _).after ?_)
  split
  · exact h.same rfl
  · exact h

theorem selectWhenKnown (s : State) : Calm s s.selectWhenKnown := by
  unfold State.selectWhenKnown State.select
  refine ite (fun _ => ite (fun _ => startupLogFault s) fun _ => ?_) fun _ => refl s
  split
  · exact of_eq rfl
  · exact (scanHere _).after (of_eq rfl)

theorem startupOutcome (s : State) (addr : Nat) (outcome : Option Line) : Calm s (s.startupOutcome addr outcome) := by
  unfold State.startupOutcome
  split
  · unfold State.slotReadOutcome
    split
    · exact refl s
    · dsimp only
      split
      · exact (selectWhenKnown _).after (of_eq rfl)
      · exact ite (fun _ => of_eq rfl) fun _ => (selectWhenKnown _).after (of_eq rfl)
  · exact scanOutcome s _ _
  · exact refl s

/-! ## Quiesce -/

theorem writerSettled (s : State) : Calm s s.writerSettled := by
  unfold State.writerSettled
  exact ite (fun _ => of_eq rfl) fun _ => refl s

theorem quiesceWriter (s : State) : Calm s s.quiesceWriter := by
  unfold State.quiesceWriter
  dsimp only
  split
  · exact of_eq rfl
  · exact (writerSettled _).after (ite (fun _ => of_eq rfl) fun _ => (stopOwner _ _).after (of_eq rfl))

theorem quiesceEngine (s : State) : Calm s s.quiesceEngine := by
  unfold State.quiesceEngine
  split
  · exact ite (fun _ => stopOwner s _) fun _ => refl s
  · exact stopOwner s _

theorem quiesceStall (s : State) : Calm s s.quiesceStall := by
  unfold State.quiesceStall
  extract_lets a b c d
  have hb : Calm s b := (answerErrors a _ _).after (of_eq rfl)
  have hd : Calm s d := (writerSettled _).after (hb.same rfl)
  exact ite (fun _ => hd.same rfl) fun _ => hd

theorem quiesce (s : State) : Calm s s.quiesce := by
  unfold State.quiesce
  extract_lets a b c d e
  have hd : Calm s d := (answerErrors c _ _).after (of_eq rfl)
  have he : Calm s e := (stopOwner _ _).after ((quiesceEngine _).after ((quiesceWriter d).after hd))
  exact ite (fun _ => (quiesceStall e).after he) fun _ => he

/-! ## What follows on an event, and outcomes -/

theorem startDue (s : State) (tag : HostTag) : Calm s (s.startDue tag) := by
  unfold State.startDue
  split
  · exact ite (fun _ => startEntry s _) fun _ => refl s
  · exact refl s

theorem nextWalk (s : State) : Calm s s.nextWalk := by
  obtain ⟨r, _, -, -, -, k⟩ | ⟨-, k⟩ := s.nextWalk_cases <;> rw [k]
  · exact startWalk s r
  · exact refl s

theorem passDrain (s : State) : Calm s s.passDrain := by
  obtain ⟨r, -, -, -, -, k⟩ | ⟨-, k⟩ := s.passDrain_cases <;> rw [k]
  · exact startWalking s r
  · exact refl s

theorem passRecovery (s : State) : Calm s s.passRecovery := by
  obtain ⟨-, k⟩ | ⟨-, k⟩ := s.passRecovery_cases <;> rw [k]
  · obtain ⟨_, _, _, h, -⟩ := s.endRecovery_shape
    rw [h]
    exact of_eq rfl
  · exact refl s

theorem passSettling (s : State) : Calm s s.passSettling := by
  obtain ⟨-, -, -, k⟩ | ⟨-, k⟩ := s.passSettling_cases <;> rw [k]
  · obtain ⟨_, _, _, _, h, -⟩ := s.endSettling_shape
    rw [h]
    exact of_eq rfl
  · exact refl s

theorem followOn (s : State) : Calm s s.followOn :=
  (passSettling _).after ((passRecovery _).after ((passDrain _).after ((nextWalk _).after (foldl startDue _ s))))

theorem deliver (s : State) (o : Owner) (live : Bool) (addr : Nat) (outcome : Option Line) :
    Calm s (s.deliver o live addr outcome) := by
  unfold State.deliver
  split
  · unfold State.completeEntry
    split
    · exact refl s
    · refine ite (fun _ => refl s) fun _ => ?_
      split
      · exact answer s _ _ _
      · exact (answer _ _ _ _).after (of_eq rfl)
  · exact ite (fun _ => anchorOutcome s _ _) fun _ => refl s
  · exact ite (fun _ => writerSettled s) fun _ => ite (fun _ => writerOutcome s _ _) fun _ => refl s
  · exact ite (fun _ => rollbackOutcome s _ _) fun _ => refl s
  · exact ite (fun _ => startupOutcome s _ _) fun _ => refl s

theorem stallBegins (s : State) : Calm s s.stallBegins := by
  unfold State.stallBegins
  dsimp only
  split
  · exact (quiesceStall _).after (of_eq rfl)
  · exact of_eq rfl
  · exact of_eq rfl

theorem expire (s : State) (o : Owner) (live : Bool) (addr : Nat) : Calm s (s.expire o live addr) := by
  unfold State.expire
  refine ite (fun _ => ?_) fun _ => deliver s _ _ _ _
  exact ite (fun _ => (deliver _ _ _ _ _).after ((stallBegins _).after (of_eq rfl)))
    fun _ => (stallBegins _).after ((deliver _ _ _ _ _).after (of_eq rfl))

/-! ## Commands -/

theorem refuseHeld (s : State) (r : RegionId) : Calm s (s.refuseHeld r) := by
  unfold State.refuseHeld
  split
  · exact (dropPending _ _ _).after ((answerErrors _ _ _).after (updWriter _ _))
  · exact refl s

theorem takeCommit (s : State) (r : RegionId) : Calm s (s.takeCommit r) := by
  unfold State.takeCommit
  extract_lets a b drain c
  have ha : Calm s a := cleared s r _ rfl
  have hc : Calm b c := updRegion b r _ id
  have hs : Calm s c := hc.after ((refuseHeld a r).after ha)
  exact ite (fun _ => (completeCommit c r).after hs) fun _ => hs

theorem takeFormat (s : State) (g : Geometry) : Calm s (s.takeFormat g) := by
  have region (s : State) (r : RegionId) : Calm s (s.formatRegion r) := by
    unfold State.formatRegion
    extract_lets a
    have ha : Calm s a := updRegion s r _ id
    exact ite (fun _ => (returnToIdle a r _).after ha) fun _ => ha
  unfold State.takeFormat
  exact (foldl region _ _).after (of_eq rfl)

theorem expireAge (s : State) (r : RegionId) : Calm s (s.expireAge r) := by
  unfold State.expireAge
  extract_lets a
  have ha : Calm s a := (cleared s r (fun x => { x with expiryDue := false }) rfl).same rfl
  split
  · exact ha
  · exact (abortTxn a r).after ha

theorem commitPhase (s : State) (r : RegionId) : Calm s (s.commitPhase r) := by
  unfold State.commitPhase
  exact ite (fun _ => completeCommit s r) fun _ =>
    (updRegion s r (fun x => { x with recordPhase := true }) id).same rfl

theorem settings {s t : State} (h : SettingsOnly s t) : Calm s t := by
  obtain ⟨_, _, _, _, _, _, rfl⟩ := h
  exact of_eq rfl

theorem contexts {s t : State} (h : ContextsOnly s t) : Calm s t := by
  obtain ⟨_, _, rfl, h⟩ := h
  exact fun r => (h r).1

end Calm

end Sys2Proof.Machine
end

section
/-! SUPPORT. What an event leaves alone, put together operation by operation: `Keeps` composes, and the ends of a transaction
change what they say and nothing else. -/

namespace Sys2Proof.Machine

/-! ## Composing `Keeps` -/

theorem Part.same_refl (s : State) (p : Part) : p.same s s := by
  cases p <;> simp [Part.same]

theorem Part.same_trans {s t u : State} {p : Part} (a : p.same s t) (b : p.same t u) : p.same s u := by
  cases p
  case regions => exact fun r => (b r).trans (a r)
  case drains => exact ⟨fun r => (b.1 r).trans (a.1 r), b.2.1.trans a.2.1, b.2.2.trans a.2.2⟩
  all_goals exact Eq.trans b a

theorem Keeps.refl (c : List Part) (s : State) : Keeps c s s := ⟨fun p _ => p.same_refl s, rfl, rfl, rfl⟩

theorem Keeps.trans {c : List Part} {s t u : State} (a : Keeps c s t) (b : Keeps c t u) : Keeps c s u :=
  ⟨fun p hp => Part.same_trans (a.1 p hp) (b.1 p hp), b.2.1.trans a.2.1, b.2.2.1.trans a.2.2.1, b.2.2.2.trans a.2.2.2⟩

/-- More parts may be named as changed. -/
theorem Keeps.mono {c d : List Part} {s t : State} (a : Keeps c s t) (h : c ⊆ d) : Keeps d s t :=
  ⟨fun p hp => a.1 p fun k => hp (h k), a.2⟩

theorem Keeps.foldl {α : Type} {c : List Part} {f : State → α → State} (h : ∀ s a, Keeps c s (f s a)) (l : List α)
    (s : State) : Keeps c s (l.foldl f s) := by
  induction l generalizing s with
  | nil => exact .refl c s
  | cons a l ih => exact (h s a).trans (ih _)

/-- A part that is not named as changed. -/
theorem Keeps.part {c : List Part} {s t : State} (h : Keeps c s t) (p : Part) (hp : c.contains p = false) : p.same s t :=
  h.1 p (by simpa using hp)

/-! ## Contexts but for their drain sets -/

/-- A region context without its drain set. -/
def Region.bare (x : Region) : Region := { x with drain := [] }

theorem Keeps.bare {c : List Part} {s t : State} (h : Keeps c s t) (hc : c.contains .regions = false) (r : RegionId) :
    (t.region r).bare = (s.region r).bare := h.part .regions hc r

theorem Keeps.others {c : List Part} {s t : State} (h : Keeps c s t) (r : RegionId) (hc : c.contains .regions = false) :
    OtherRegions r s t := fun q _ => h.part .regions hc q

theorem OtherRegions.trans {r : RegionId} {s t u : State} (a : OtherRegions r s t) (b : OtherRegions r t u) :
    OtherRegions r s u := fun q hq => (b q hq).trans (a q hq)

theorem OtherRegions.updRegion (s : State) (r : RegionId) (f : Region → Region) : OtherRegions r s (s.updRegion r f) := by
  intro q hq
  rw [State.region_updRegion, if_neg (Ne.symm hq)]

/-! ## Updates of one part -/

section
variable (s : State)

theorem Keeps.setDevice (d : DeviceState) : Keeps [.device] s (s.setDevice d) :=
  ⟨fun p hp => by cases p <;> simp_all [Part.same], rfl, rfl, rfl⟩

theorem Keeps.setNotice (n : Source) : Keeps [.notices] s (s.setNotice n) :=
  ⟨fun p hp => by cases p <;> simp_all [Part.same], rfl, rfl, rfl⟩

theorem Keeps.updWriter (f : LogWriter → LogWriter) : Keeps [.writer] s (s.updWriter f) :=
  ⟨fun p hp => by cases p <;> simp_all [Part.same], rfl, rfl, rfl⟩

theorem Keeps.updDport (f : Downstream → Downstream) : Keeps [.dport] s (s.updDport f) :=
  ⟨fun p hp => by cases p <;> simp_all [Part.same], rfl, rfl, rfl⟩

/-- An update of the log that leaves FORMAT's drain set. -/
theorem Keeps.updLog {f : LogState → LogState} (h : (f s.log).formatDrain = s.log.formatDrain) :
    Keeps [.log] s (s.updLog f) :=
  ⟨fun p hp => by cases p <;> simp_all [Part.same], rfl, rfl, rfl⟩

/-- An update of the engine that leaves the walk's drain set. -/
theorem Keeps.updEngine {f : Engine → Engine} (h : (f s.engine).drain = s.engine.drain) :
    Keeps [.engine] s (s.updEngine f) :=
  ⟨fun p hp => by cases p <;> simp_all [Part.same], rfl, rfl, rfl⟩

theorem Keeps.freeDirectory (r : RegionId) : Keeps [.directory] s (s.freeDirectory r) :=
  ⟨fun p hp => by cases p <;> simp_all [Part.same], rfl, rfl, rfl⟩

theorem Keeps.dropPending (r : RegionId) (lines : List Nat) : Keeps [.directory] s (s.dropPending r lines) :=
  ⟨fun p hp => by cases p <;> simp_all [Part.same], rfl, rfl, rfl⟩

theorem Keeps.updEntry (tag : HostTag) (f : Entry → Entry) : Keeps [.table] s (s.updEntry tag f) :=
  ⟨fun p hp => by cases p <;> simp_all [Part.same], rfl, rfl, rfl⟩

theorem Keeps.moveEntries (tags : List HostTag) (st : EntryState) : Keeps [.table] s (s.moveEntries tags st) :=
  ⟨fun p hp => by cases p <;> simp_all [Part.same], rfl, rfl, rfl⟩

/-- A fault pushed sets FAULT pending too (R114). -/
theorem Keeps.pushFault (e : FaultEntry) : Keeps [.faults, .notices] s (s.pushFault e) := by
  have push : Keeps [.faults, .notices] s { s with faults := pushEntry s.faults e } :=
    ⟨fun p hp => by cases p <;> simp_all [Part.same, State.region], rfl, rfl, rfl⟩
  exact push.trans ((Keeps.setNotice _ faultSource).mono (by decide))

/-- An update of one region's context. -/
theorem Keeps.updContext (r : RegionId) (f : Region → Region) : Keeps [.regions, .drains] s (s.updRegion r f) :=
  ⟨fun p hp => by cases p <;> simp_all [Part.same], rfl, rfl, rfl⟩

/-- An update of one region's context that leaves its drain set. -/
theorem Keeps.updRegion (r : RegionId) (f : Region → Region) (h : (f (s.region r)).drain = (s.region r).drain) :
    Keeps [.regions] s (s.updRegion r f) := by
  have drain (q : RegionId) : ((s.updRegion r f).region q).drain = (s.region q).drain := by
    rw [State.region_updRegion]
    split_ifs with k
    · rw [← k, h]
    · rfl
  exact ⟨fun p hp => by cases p <;> simp_all [Part.same], rfl, rfl, rfl⟩

end

/-! ## Entries -/

/-- An answered entry leaves the table and the drain sets, and its response is given (R149, R150). -/
theorem Keeps.answer (s : State) (e : Entry) (reason : Reason) (data : List Word32) :
    Keeps [.table, .drains, .responses] s (s.answer e reason data) := by
  rw [State.answer_update]
  exact ⟨fun p hp => by cases p <;> simp_all [Part.same, State.region, Vector.get_eq_getElem], rfl, rfl, rfl⟩

theorem State.responses_answer (s : State) (e : Entry) (reason : Reason) (data : List Word32) :
    (s.answer e reason data).responses = s.responses ++ [⟨e.tag, reason, data⟩] := by
  rw [State.answer_update]

theorem State.table_answer (s : State) (e : Entry) (reason : Reason) (data : List Word32) :
    (s.answer e reason data).table = s.table.filter fun x => x.tag ≠ e.tag := by
  rw [State.answer_update]

theorem errorData_eq (e : Entry) (reason : Reason) :
    (⟨e.tag, reason, errorData e.op e.count⟩ : Response) = e.errResponse reason := by
  unfold errorData Entry.errResponse
  cases e.op <;> rfl

/-- Answering entries ERR gives each its response, in their order. -/
theorem State.responses_answerErrors (s : State) (es : List Entry) (reason : Entry → Reason) :
    (s.answerErrors es reason).responses = s.responses ++ es.map fun e => e.errResponse (reason e) := by
  unfold State.answerErrors
  induction es generalizing s with
  | nil => simp
  | cons e es ih =>
    rw [List.foldl_cons, ih, State.answerError, State.responses_answer, errorData_eq]
    simp

/-- Answering entries takes those with their tags from the table. -/
theorem State.table_answerErrors (s : State) (es : List Entry) (reason : Entry → Reason) :
    (s.answerErrors es reason).table = s.table.filter fun x => !(es.map Entry.tag).contains x.tag := by
  unfold State.answerErrors
  induction es generalizing s with
  | nil => simp
  | cons e es ih =>
    rw [List.foldl_cons, ih, State.answerError, State.table_answer, List.filter_filter]
    refine List.filter_congr fun x _ => ?_
    by_cases h : x.tag = e.tag <;> simp [h]

theorem Keeps.answerErrors (s : State) (es : List Entry) (reason : Entry → Reason) :
    Keeps [.table, .drains, .responses] s (s.answerErrors es reason) :=
  .foldl (fun s e => .answer s e _ _) es s

/-- The members of a group answered ERR: their responses in table order, and the table without them. -/
theorem State.answerMembers (s : State) (tags : List HostTag) (reason : Reason) :
    (s.answerErrors (s.entriesOf tags) fun _ => reason).table = s.table.filter (fun e => !tags.contains e.tag) ∧
    (s.answerErrors (s.entriesOf tags) fun _ => reason).responses = s.responses ++
      (s.table.filter fun e => tags.contains e.tag).map fun e => e.errResponse reason := by
  have members : s.entriesOf tags = s.table.filter fun e => tags.contains e.tag := by
    simp [State.entriesOf]
  rw [State.table_answerErrors, State.responses_answerErrors, members]
  refine ⟨List.filter_congr fun x hx => ?_, rfl⟩
  congr 1
  rw [Bool.eq_iff_iff]
  simp only [List.contains_iff_mem, List.mem_map, List.mem_filter]
  constructor
  · rintro ⟨y, ⟨-, hy⟩, hxy⟩
    rwa [← hxy]
  · exact fun h => ⟨x, ⟨hx, h⟩, rfl⟩

/-- An entry's start changes the table, and where it is refused the drain sets and the responses (R156). -/
theorem Keeps.startEntry (s : State) (e : Entry) : Keeps [.table, .drains, .responses] s (s.startEntry e) := by
  obtain ⟨reason, k⟩ | ⟨st, h, -, k⟩ := startEntry_cases s e <;> rw [k]
  · exact .answer s e _ _
  · exact (Keeps.updEntry s _ _).mono (by decide)

theorem Keeps.releaseHeld (s : State) (r : RegionId) : Keeps [.table, .drains, .responses] s (s.releaseHeld r) :=
  .foldl Keeps.startEntry _ s

/-! ## The return to IDLE (R23) -/

/-- A pending AT_CLOSE apply is carried out or rejected, and is no more pending (R11). -/
theorem State.applyAtReturn_effect (s : State) (r : RegionId) :
    Keeps [.regions, .faults, .notices] s (s.applyAtReturn r) ∧ OtherRegions r s (s.applyAtReturn r) ∧
      (∃ live apply, (s.applyAtReturn r).region r = { s.region r with live := live, pendingApply := apply }) ∧
      ∀ n, n ≠ faultSource → (s.applyAtReturn r).flag n = s.flag n := by
  unfold State.applyAtReturn
  split_ifs
  · refine ⟨(Keeps.updRegion s r _ rfl).mono (by decide), .updRegion s r _, ⟨_, _, State.region_updRegion_self s r _⟩,
      fun _ _ => rfl⟩
  · have keeps : Keeps [.regions, .faults, .notices] s (s.setApply r .none) :=
      (Keeps.updRegion s r (fun x => { x with pendingApply := .none }) rfl).mono (by decide)
    refine ⟨keeps.trans ((Keeps.pushFault _ _).mono (by decide)), OtherRegions.updRegion s r fun x => { x with pendingApply := .none },
      ⟨_, _, State.region_updRegion_self s r fun x => { x with pendingApply := .none }⟩, fun n hn => ?_⟩
    rw [State.pushFault, State.flag_setNotice, decide_eq_false (Ne.symm hn)]
    rfl
  · exact ⟨.refl _ s, fun _ _ => rfl, ⟨_, _, rfl⟩, fun _ _ => rfl⟩

/-- What a return of region `r` to IDLE with transaction number `number` does: the context is that of R23 but for its live
descriptor and its pending apply, the directory loses the region's entries, and of the rest only what the released entries
and a rejected apply change. -/
structure ReturnedToIdle (s t : State) (r : RegionId) (number : Word32) : Prop where
  region : ∃ live apply, (t.region r).bare = { s.region r with
    live := live, pendingApply := apply, txn := .idle, number := number, sub := .none, drain := [], recordPhase := false,
    expiryDue := false }
  others : OtherRegions r s t
  directory : t.directory = s.directory.filter fun d => d.region ≠ r
  flags : ∀ n, n ≠ faultSource → t.flag n = s.flag n
  keeps : Keeps [.regions, .drains, .directory, .faults, .notices, .table, .responses] s t

theorem State.returnToIdle_effect (s : State) (r : RegionId) (number : Word32 → Word32) :
    ReturnedToIdle s (s.returnToIdle r number) r (number (s.region r).number) := by
  unfold State.returnToIdle
  extract_lets a b c
  obtain ⟨hk, ho, ⟨live, apply, hr⟩, hf⟩ := c.applyAtReturn_effect r
  have release := Keeps.releaseHeld (c.applyAtReturn r) r
  have ra : a.region r = { s.region r with
      txn := .idle, sub := .none, drain := [], recordPhase := false, expiryDue := false } := State.region_updRegion_self s r _
  have rc : c.region r = { b.region r with number := number (b.region r).number } := State.region_updRegion_self b r _
  have oa : OtherRegions r s a := OtherRegions.updRegion s r _
  have ob : OtherRegions r s b := oa
  have oc : OtherRegions r s c := ob.trans (OtherRegions.updRegion b r _)
  have kc : Keeps [.regions, .drains, .directory] s c :=
    ((Keeps.updContext s r _).mono (by decide)).trans
      (((Keeps.freeDirectory a r).mono (by decide)).trans ((Keeps.updRegion b r _ rfl).mono (by decide)))
  refine ⟨⟨live, apply, ?_⟩, (oc.trans ho).trans (release.others r rfl), ?_, fun n hn => ?_,
    (kc.mono (by decide)).trans ((hk.mono (by decide)).trans (release.mono (by decide)))⟩
  · rw [release.bare rfl, hr, rc]
    show Region.bare { a.region r with live := live, pendingApply := apply, number := number (a.region r).number } = _
    rw [ra]
    rfl
  · exact (release.part .directory rfl).trans (hk.part .directory rfl)
  · have hn' := hf n hn
    rw [State.flag, release.part .notices rfl]
    exact hn'

end Sys2Proof.Machine
end

section
/-! SUPPORT. The commands of the link on one region: where a command is refused before its owner acts, and what the owner of
each of the short ones answers. -/

namespace Sys2Proof.Machine

/-! ## Where a command's owner acts (R186) -/

theorem gated_of_serving {s : State} (h : Serving s) (owner : State → Reply) : gated owner s = owner s :=
  if_pos ((admitsAll_iff s).mpr h)

theorem gated_of_not_serving {s : State} (h : ¬Serving s) (owner : State → Reply) : gated owner s = s.reply .busy :=
  if_neg fun k => h ((admitsAll_iff s).mp k)

theorem onRegion_of_region {b : Byte} {r : RegionId} (h : b.toNat = r.val) (owner : RegionId → State → Reply) :
    onRegion b owner = owner r := by
  have hb : b.toNat < 8 := by omega
  have hr : (⟨b.toNat, hb⟩ : RegionId) = r := Fin.ext h
  funext s
  simp [onRegion, regionOf, hb, hr]

theorem onRegion_of_above {b : Byte} (h : 7 < b.toNat) (owner : RegionId → State → Reply) (s : State) :
    onRegion b owner s = s.reply .noRegion := by
  have hb : ¬b.toNat < 8 := by omega
  simp [onRegion, regionOf, hb]

section
variable {c : Instr} {s : State} {b : Byte} {len : Nat} {owner : RegionId → State → Reply}

/-- A gated region command outside RUN, NOLOG and LOG_FAULT. -/
theorem takes_busy (hl : LinkReady s) (h : ¬Serving s)
    (he : exec c s = .next (s.takeCommand c len (gated (onRegion b owner)))) :
    Takes c s .busy (List.replicate len 0) s := by
  have k := takes_of_reply hl he
  rwa [gated_of_not_serving h] at k

/-- A gated region command with an operand above 7. -/
theorem takes_noRegion (hl : LinkReady s) (hs : Serving s) (h : 7 < b.toNat)
    (he : exec c s = .next (s.takeCommand c len (gated (onRegion b owner)))) :
    Takes c s .noRegion (List.replicate len 0) s := by
  have k := takes_of_reply hl he
  rwa [gated_of_serving hs, onRegion_of_above h] at k

/-- A gated region command that its owner takes. -/
theorem takes_region {r : RegionId} (hl : LinkReady s) (hs : Serving s) (hb : b.toNat = r.val)
    (he : exec c s = .next (s.takeCommand c len (gated (onRegion b owner)))) :
    Takes c s (owner r s).result (if (owner r s).result = .ok then (owner r s).data else List.replicate len 0)
      (owner r s).state := by
  have k := takes_of_reply hl he
  rwa [gated_of_serving hs, onRegion_of_region hb] at k

/-- A gated region command that its owner refuses or carries out without data. -/
theorem takes_plain {r : RegionId} {result : ResultCode} {t : State} (hl : LinkReady s) (hs : Serving s)
    (hb : b.toNat = r.val) (he : exec c s = .next (s.takeCommand c 0 (gated (onRegion b owner))))
    (ho : owner r s = ⟨result, [], t⟩) : Takes c s result [] t := by
  have k := takes_region hl hs hb he
  rw [ho] at k
  simpa using k

end

/-! ## STAGE (R6) -/

/-- The field codes and values that STAGE does not take. -/
theorem Descriptor.withField_eq_none (d : Descriptor) {memory code v : Nat}
    (h : 6 < code ∨ (code = 0 ∨ code = 3 ∨ code = 6) ∧ 1 < v ∨ code = 1 ∧ (v % 32 ≠ 0 ∨ memory ≤ v) ∨
      (code = 2 ∨ code = 5) ∧ 0xFFFF < v ∨ code = 4 ∧ 2 < v) : d.withField memory code v = none := by
  obtain h | ⟨rfl | rfl | rfl, h⟩ | ⟨rfl, h⟩ | ⟨rfl | rfl, h⟩ | ⟨rfl, h⟩ := h
  · obtain ⟨n, rfl⟩ := Nat.exists_eq_add_of_lt h
    rw [show 6 + n + 1 = n + 7 by omega]
    rfl
  iterate 3
    obtain ⟨n, rfl⟩ := Nat.exists_eq_add_of_lt h
    rw [show 1 + n + 1 = n + 2 by omega]
    rfl
  · exact if_neg (by omega)
  · exact if_neg (by omega)
  · exact if_neg (by omega)
  · obtain ⟨n, rfl⟩ := Nat.exists_eq_add_of_lt h
    rw [show 2 + n + 1 = n + 3 by omega]
    rfl

/-- Settles O18: each field code with a value it takes writes that field, and every other value is BAD_ARG. -/
theorem stageWritesOneStagedField : Obligations.StageWritesOneStagedField := by
  intro b f v s hl hs
  refine ⟨fun h => takes_noRegion (len := 0) hl hs h rfl, fun r hb => ?_⟩
  extract_lets d stages
  have writes (d' : Descriptor) (h : d.withField s.memorySize f.toNat v.toNat = some d') : stages d' := by
    refine takes_plain hl hs hb rfl ?_
    unfold stageReply
    rw [h]
    rfl
  have refuses (h : d.withField s.memorySize f.toNat v.toNat = none) : Takes (.stage b f v) s .badArg [] s := by
    refine takes_plain hl hs hb rfl ?_
    unfold stageReply
    rw [h]
    rfl
  refine ⟨?_, ?_, ?_, ?_, ?_, ?_, ?_, ?_, ?_, ?_, ?_, ?_, ?_⟩
  · rintro rfl rfl; exact writes _ rfl
  · rintro rfl rfl; exact writes _ rfl
  · rintro rfl h k; exact writes _ (if_pos ⟨h, k⟩)
  · rintro rfl h; exact writes _ (if_pos h)
  · rintro rfl rfl; exact writes _ rfl
  · rintro rfl rfl; exact writes _ rfl
  · rintro rfl rfl; exact writes _ rfl
  · rintro rfl rfl; exact writes _ rfl
  · rintro rfl rfl; exact writes _ rfl
  · rintro rfl h; exact writes _ (if_pos h)
  · rintro rfl rfl; exact writes _ rfl
  · rintro rfl rfl; exact writes _ rfl
  · intro h
    refine refuses (d.withField_eq_none ?_)
    obtain h | ⟨rfl | rfl | rfl, h⟩ | ⟨rfl, h⟩ | ⟨rfl | rfl, h⟩ | ⟨rfl, h⟩ := h
    · exact .inl h
    · exact .inr (.inl ⟨.inl rfl, h⟩)
    · exact .inr (.inl ⟨.inr (.inl rfl), h⟩)
    · exact .inr (.inl ⟨.inr (.inr rfl), h⟩)
    · exact .inr (.inr (.inl ⟨rfl, h⟩))
    · exact .inr (.inr (.inr (.inl ⟨.inl rfl, h⟩)))
    · exact .inr (.inr (.inr (.inl ⟨.inr rfl, h⟩)))
    · exact .inr (.inr (.inr (.inr ⟨rfl, h⟩)))

/-! ## APPLY (R7 to R10) -/

theorem applyNowReply_outside {s : State} {r : RegionId} (h : (s.region r).txn ≠ .idle) :
    applyNowReply r s = s.reply .state := if_neg h

theorem applyNowReply_idle {s : State} {r : RegionId} (h : (s.region r).txn = .idle) :
    applyNowReply r s = if s.stagedPasses r then done (s.applyStaged r) else s.reply .overlap := if_pos h

theorem applyAtCloseReply_outside {s : State} {r : RegionId} (h : (s.region r).txn ≠ .idle) :
    applyAtCloseReply r s = done (s.setApply r .atClose) := if_neg h

theorem applyAtCloseReply_idle {s : State} {r : RegionId} (h : (s.region r).txn = .idle) :
    applyAtCloseReply r s =
      if s.stagedPasses r then done (s.applyStaged r) else ⟨.overlap, [], s.setApply r .none⟩ := if_pos h

/-- Settles O19. -/
theorem applyNowMakesTheStagedCopyLive : Obligations.ApplyNowMakesTheStagedCopyLive := by
  intro b r s hi hw hl hs hb
  have checks := s.stagedPasses_iff hi hw r
  refine ⟨fun h => takes_plain hl hs hb rfl (applyNowReply_outside h), fun h k => takes_plain hl hs hb rfl ?_,
    fun h k => takes_plain hl hs hb rfl ?_⟩ <;> rw [applyNowReply_idle h]
  · exact if_neg fun j => k (checks.mp j)
  · exact if_pos (checks.mpr k)

/-- Settles O20. -/
theorem applyCanBeDeferredOrWithdrawn : Obligations.ApplyCanBeDeferredOrWithdrawn := by
  intro b r s hi hw hl hs hb
  have checks := s.stagedPasses_iff hi hw r
  refine ⟨fun h => takes_plain hl hs hb rfl (applyAtCloseReply_outside h), fun h k => takes_plain hl hs hb rfl ?_,
    fun h k => takes_plain hl hs hb rfl ?_, takes_plain hl hs hb rfl rfl, takes_plain hl hs hb rfl rfl⟩ <;>
    rw [applyAtCloseReply_idle h]
  · exact if_pos (checks.mpr k)
  · exact if_neg fun j => k (checks.mp j)

/-! ## BEGIN and RETRY (R15, R25) -/

theorem serving_of_run {s : State} (h : s.device = .run) : Serving s := .inl h

theorem serving_of_noLog {s : State} (h : s.device = .nolog ∨ s.device = .logFault) : Serving s := .inr h

/-- An operand byte 0 to 7 is a region's number. -/
theorem region_of_byte {b : Byte} (h : b.toNat ≤ 7) : ∃ r : RegionId, b.toNat = r.val := ⟨⟨b.toNat, by omega⟩, rfl⟩

theorem not_noLog_of_run {s : State} (h : s.device = .run) : ¬(s.device = .nolog ∨ s.device = .logFault) := by
  rw [h]
  decide

/-- BEGIN in RUN, past the check of the log. -/
theorem beginReply_run {s : State} (h : s.device = .run) (r : RegionId) :
    beginReply r s =
      if (s.region r).txn ≠ .idle then s.reply .state
      else if (s.region r).pendingApply = .atBegin then
        if s.stagedPasses r then beginEnabled r (s.applyStaged r) else ⟨.overlap, [], s.setApply r .none⟩
      else beginEnabled r s := if_neg (not_noLog_of_run h)

/-- BEGIN in IDLE with no AT_BEGIN apply pending. -/
theorem beginReply_idle {s : State} {r : RegionId} (h : s.device = .run) (hi : (s.region r).txn = .idle)
    (hp : (s.region r).pendingApply ≠ .atBegin) : beginReply r s = beginEnabled r s := by
  rw [beginReply_run h, if_neg (not_not.mpr hi), if_neg hp]

/-- BEGIN in IDLE with an AT_BEGIN apply pending: the apply is made first. -/
theorem beginReply_atBegin {s : State} {r : RegionId} (h : s.device = .run) (hi : (s.region r).txn = .idle)
    (hp : (s.region r).pendingApply = .atBegin) :
    beginReply r s = if s.stagedPasses r then beginEnabled r (s.applyStaged r) else ⟨.overlap, [], s.setApply r .none⟩ := by
  rw [beginReply_run h, if_neg (not_not.mpr hi), if_pos hp]

theorem beginEnabled_disabled {s : State} {r : RegionId} (h : (s.region r).live.enable = false) :
    beginEnabled r s = ⟨.state, [], s⟩ := if_neg (by simp [h])

theorem beginEnabled_enabled {s : State} {r : RegionId} (h : (s.region r).live.enable = true) :
    beginEnabled r s = done (s.updRegion r Region.begun) := if_pos h

theorem State.enable_applyStaged (s : State) (r : RegionId) :
    ((s.applyStaged r).region r).live.enable = (s.region r).staged.enable := by
  unfold State.applyStaged
  rw [State.region_updRegion_self]

/-- Settles O21: BEGIN's checks in the order of R15; an AT_BEGIN apply stands also where the region is then not enabled. -/
theorem beginOpensATransaction : Obligations.BeginOpensATransaction := by
  intro b s hl
  refine ⟨fun h => takes_busy (len := 0) hl h rfl, fun hs h => takes_noRegion (len := 0) hl hs h rfl, fun hd h => ?_,
    fun r hi hw hd hb => ?_⟩
  · obtain ⟨r, hb⟩ := region_of_byte h
    exact takes_plain hl (serving_of_noLog hd) hb rfl (if_pos hd)
  · have checks := s.stagedPasses_iff hi hw r
    have takes {result t} : beginReply r s = ⟨result, [], t⟩ → Takes (.beginTxn b) s result [] t :=
      takes_plain hl (serving_of_run hd) hb rfl
    refine ⟨fun h => takes ?_, fun h hp => ⟨fun he => takes ?_, fun he => takes ?_⟩,
      fun h hp => ⟨fun k => takes ?_, fun k he => takes ?_, fun k he => takes ?_⟩⟩
    · rw [beginReply_run hd, if_pos h]
      rfl
    · rw [beginReply_idle hd h hp, beginEnabled_disabled he]
    · rw [beginReply_idle hd h hp, beginEnabled_enabled he]
      rfl
    · rw [beginReply_atBegin hd h hp, if_neg fun j => k (checks.mp j)]
      rfl
    · rw [beginReply_atBegin hd h hp, if_pos (checks.mpr k),
        beginEnabled_disabled ((s.enable_applyStaged r).trans he)]
      rfl
    · rw [beginReply_atBegin hd h hp, if_pos (checks.mpr k),
        beginEnabled_enabled ((s.enable_applyStaged r).trans he), State.applyStaged, State.updRegion_updRegion]
      rfl

/-- Settles O24. -/
theorem retryQueuesAFaultedRegion : Obligations.RetryQueuesAFaultedRegion := by
  intro b s hl
  refine ⟨fun h => takes_busy (len := 0) hl h rfl, fun hs h => takes_noRegion (len := 0) hl hs h rfl, fun hd h => ?_,
    fun r hd hb => ?_⟩
  · obtain ⟨r, hb⟩ := region_of_byte h
    exact takes_plain hl (serving_of_noLog hd) hb rfl (if_pos hd)
  · have reply : retryReply r s = if (s.region r).txn = .faulted then done (s.queueWalk r).followOn else s.reply .state :=
      if_neg (not_noLog_of_run hd)
    refine ⟨fun h => takes_plain hl (serving_of_run hd) hb rfl ?_, fun h => takes_plain hl (serving_of_run hd) hb rfl ?_⟩ <;>
      rw [reply]
    · exact if_neg h
    · exact if_pos h

/-! ## Unknown commands (R10, R185) -/

/-- Settles O16. -/
theorem unknownCommandIsRefused : Obligations.UnknownCommandIsRefused := by
  refine ⟨fun code s h hl => ?_, fun b point s hp hl => ?_⟩
  · have he : exec (.unknownCommand code []) s =
        .next (s.takeCommand (.unknownCommand code []) 0 fun s => s.reply .badArg) := by
      show Host.Outcome.next (s.takeUnknown code []) = _
      unfold State.takeUnknown
      rw [if_pos (by simp [unknownCode, h])]
    exact takes_of_reply hl he
  · have he : exec (.unknownCommand 0x11 [b, point]) s =
        .next (s.takeCommand (.unknownCommand 0x11 [b, point]) 0 (gated (onRegion b fun _ s => s.reply .badArg))) := by
      show Host.Outcome.next (s.takeUnknown 0x11 [b, point]) = _
      unfold State.takeUnknown
      rw [if_neg (by simp [unknownCode, operandBytes]), if_pos (by simp [unknownPoint, applyCode, hp])]
      rfl
    refine ⟨fun hs h => ?_, fun hs h => takes_noRegion (len := 0) hl hs h he, fun hs => takes_busy (len := 0) hl hs he⟩
    obtain ⟨r, hb⟩ := region_of_byte h
    exact takes_plain hl hs hb he rfl

end Sys2Proof.Machine
end

section
/-! SUPPORT. The fields of result data (R193), and the values after reset. -/

namespace Sys2Proof.Machine

/-! ## Fields of result data -/

theorem length_beBytes (len v : Nat) : (beBytes len v).length = len := by
  induction len with
  | zero => rfl
  | succ len ih => simp [beBytes, ih]

/-- The bytes of a number spell it, modulo their width. -/
theorem beNumber_beBytes (len v : Nat) : beNumber (beBytes len v) = v % 256 ^ len := by
  have go : ∀ acc, (beBytes len v).foldl (fun n b => n * 256 + b.toNat) acc = acc * 256 ^ len + v % 256 ^ len := by
    induction len with
    | zero => simp [beBytes, Nat.mod_one]
    | succ len ih =>
      intro acc
      have digit : v % 256 ^ (len + 1) = v % 256 ^ len + 256 ^ len * (v / 256 ^ len % 256) := Nat.mod_pow_succ
      have width : 2 ^ (8 * len) = 256 ^ len := pow_mul 2 8 len
      rw [beBytes, List.foldl_cons, ih, digit, BitVec.toNat_ofNat, width]
      ring
  simpa [beNumber] using go 0

/-- A field past the first bytes. -/
theorem field_append {pre : List Byte} {n pos : Nat} (h : pre.length = n) (hp : n ≤ pos) (rest : List Byte) (len : Nat) :
    field (pre ++ rest) pos len = field rest (pos - n) len := by
  unfold field
  rw [List.drop_append, List.drop_of_length_le (by omega), h, List.nil_append]

/-- The first field of data. -/
theorem field_beBytes_append (len v : Nat) (rest : List Byte) : field (beBytes len v ++ rest) 0 len = v % 256 ^ len := by
  unfold field
  rw [List.drop_zero, List.take_left' (length_beBytes len v), beNumber_beBytes]

/-- The last field of data. -/
theorem field_beBytes (len v : Nat) : field (beBytes len v) 0 len = v % 256 ^ len := by
  simpa using field_beBytes_append len v []

/-- A field after a number's bytes. -/
theorem field_beBytes_skip {len pos : Nat} (hp : len ≤ pos) (v : Nat) (rest : List Byte) (n : Nat) :
    field (beBytes len v ++ rest) pos n = field rest (pos - len) n := field_append (length_beBytes len v) hp rest n

theorem Outside.code_lt (x : Outside) : x.code < 256 := by cases x <;> decide

theorem SpacePolicy.code_lt (x : SpacePolicy) : x.code < 256 := by cases x <;> decide

theorem AgeAction.code_lt (x : AgeAction) : x.code < 256 := by cases x <;> decide

theorem PendingApply.code_lt (x : PendingApply) : x.code < 256 := by cases x <;> decide

theorem TxnState.code_lt (x : TxnState) : x.code < 256 := by cases x <;> decide

theorem SubState.code_lt (x : SubState) : x.code < 256 := by cases x <;> decide

theorem yesNo_lt (b : Bool) : (if b = true then 1 else 0) < 256 := by cases b <;> decide

theorem orNone_mod (x : Option Nat) : orNone x % 4294967296 = indexShown x := by cases x <;> rfl

theorem Descriptor.length_bytes (d : Descriptor) : d.bytes.length = 11 := by simp [Descriptor.bytes, length_beBytes]

/-- A descriptor's eleven bytes show its fields where they stand. -/
theorem Descriptor.shown {memory : Nat} {d : Descriptor} (h : d.InRange memory) (hm : memory ≤ 2 ^ 24)
    {pre rest : List Byte} {pos : Nat} (hp : pre.length = pos) : DescriptorShown (pre ++ (d.bytes ++ rest)) pos d := by
  have hb : d.base < 16777216 := by have := h.below; omega
  have hs : d.size - 1 < 65536 := by have := h.sizeTop; omega
  have ha : d.ageLimit < 65536 := by have := h.ageTop; omega
  constructor <;> rw [field_append hp (by omega)] <;>
    simp [Descriptor.bytes, field_beBytes_append, field_beBytes_skip, Nat.mod_eq_of_lt, yesNo, yesNo_lt, d.outside.code_lt,
      d.space.code_lt, d.ageAction.code_lt, hb, hs, ha]

theorem memorySizeOf_le (msize : Fin 4) : memorySizeOf msize ≤ 2 ^ 24 := by revert msize; decide

theorem State.directoryCount_eq (s : State) (r : RegionId) :
    s.directoryCount r = s.directory.countP (fun d => d.region = r) := by
  unfold State.directoryCount
  congr 1

/-- Settles O10: the data are Table 11-7's fields one after another. -/
theorem readRegionReportsTheContext : Obligations.ReadRegionReportsTheContext := by
  intro b r s hi hl hs hb
  have hm : s.memorySize ≤ 2 ^ 24 := memorySizeOf_le s.msize
  have hage : (s.region r).age < 65536 := by have := hi.ages r; omega
  have hnumber : (s.region r).number.toNat < 4294967296 := (s.region r).number.isLt
  have hcount : s.directory.countP (fun d => d.region = r) < 65536 := by
    have := List.countP_le_length (p := fun d : DirEntry => decide (d.region = r)) (l := s.directory)
    have := hi.directory
    omega
  refine ⟨s.regionData r, takes_region hl hs hb (rfl : exec (.readRegion b) s = _), ?_⟩
  generalize hrest : beBytes 1 (s.region r).pendingApply.code ++ (beBytes 1 (s.region r).txn.code ++
    (beBytes 4 (s.region r).number.toNat ++ (beBytes 4 (s.region r).records ++ (beBytes 4 (orNone (s.region r).firstIndex) ++
    (beBytes 4 (orNone (s.region r).lastIndex) ++ (beBytes 1 (yesNo (s.region r).saturated) ++
    (beBytes 2 (s.region r).age ++ (beBytes 1 (s.region r).sub.code ++ beBytes 2 (s.directoryCount r))))))))) = rest
  have hdata : s.regionData r = (s.region r).live.bytes ++ ((s.region r).staged.bytes ++ rest) := by
    rw [← hrest]
    simp only [State.regionData, List.append_assoc]
  have skip (pos n : Nat) (h : 22 ≤ pos) : field (s.regionData r) pos n = field rest (pos - 22) n := by
    rw [hdata, field_append (Descriptor.length_bytes _) (by omega), field_append (Descriptor.length_bytes _) (by omega),
      Nat.sub_sub]
  refine ⟨?_, ?_, ?_, ?_, ?_, ?_, ?_, ?_, ?_, ?_, ?_, ?_, ?_⟩
  · simp [hdata, ← hrest, Descriptor.length_bytes, length_beBytes]
  · rw [hdata]
    exact Descriptor.shown (pre := []) (hi.live r) hm rfl
  · rw [hdata]
    exact Descriptor.shown (hi.staged r) hm (Descriptor.length_bytes _)
  all_goals
    rw [skip _ _ (by decide), ← hrest]
    simp [field_beBytes_append, field_beBytes_skip, field_beBytes, Nat.mod_eq_of_lt, PendingApply.code_lt, TxnState.code_lt,
      SubState.code_lt, yesNo, yesNo_lt, orNone_mod, hage, hnumber, hcount, State.directoryCount_eq]

/-! ## The values after reset (R118) -/

theorem State.tag_afterReset (msize : Fin 4) (selected : Bool) (pending : List Instr) (g : DownTag) :
    (State.afterReset msize selected pending).tag g = .free := by
  simp [State.tag, State.afterReset, Vector.get_eq_getElem]

theorem State.flag_afterReset (msize : Fin 4) (selected : Bool) (pending : List Instr) (n : Source) :
    (State.afterReset msize selected pending).flag n = false := by
  simp [State.flag, State.afterReset, Notices.reset, Vector.get_eq_getElem]

/-- Without a pending source ALERT_N is not asserted. -/
theorem State.alert_eq_false {s : State} (h : ∀ n, s.flag n = false) : s.alert = false := by
  have none : allSources.any (signals s.notices) = false := by
    refine List.any_eq_false.mpr fun n _ => ?_
    have hn : s.notices.flags.get n = false := h n
    simp [signals, hn]
  rw [State.alert, none, Bool.and_false]

/-- Settles O4. -/
theorem resetReleaseGivesTheValuesAfterReset : Obligations.ResetReleaseGivesTheValuesAfterReset := by
  intro msize selected s
  have size : memorySizeOf msize = 2 ^ (21 + msize.val) := by
    revert msize
    decide
  have reads : slotReadRequests msize =
      [readBlock .startup (memorySizeOf msize - 64), readBlock .startup (memorySizeOf msize - 32)] := rfl
  have alert : State.alert { State.afterReset msize selected s.pending with freeCount := s.freeCount } = false :=
    State.alert_eq_false fun n => State.flag_afterReset msize selected s.pending n
  exact ⟨_, rfl, rfl, rfl, rfl, size, rfl, rfl, rfl, State.region_afterReset msize selected s.pending, rfl, rfl, rfl, rfl, rfl,
    rfl, rfl, rfl, State.tag_afterReset msize selected s.pending, rfl, rfl, rfl, reads, rfl, rfl, rfl, rfl, alert, rfl, rfl,
    rfl⟩

/-- Settles O54. -/
theorem resetStateObeysTheLaws : Obligations.ResetStateObeysTheLaws := by
  refine ⟨fun msize selected pending => ⟨?_, ?_, ?_, ?_, ?_, ?_, fun r => ?_⟩, rfl⟩
  · exact InRange.afterReset msize selected pending
  · exact ⟨nofun, nofun, fun _ _ => rfl, nofun, nofun⟩
  · exact ⟨nofun, fun _ => rfl⟩
  · exact WindowLaw.afterReset msize selected pending
  · exact List.Pairwise.nil
  · exact .of_device (NoneStarts.nil _) nofun nofun nofun
  · rw [State.region_afterReset]
    rfl

end Sys2Proof.Machine
end

section
/-! SUPPORT. The ends of a transaction: the abort with and without records, the commit without records, and the statements
on ABORT, COMMIT, a drained commit and an expiry. -/

namespace Sys2Proof.Machine

/-! ## Parts kept, field by field -/

theorem Keeps.queue {c : List Part} {s t : State} (h : Keeps c s t) (hc : c.contains .engine = false) :
    t.engine.queue = s.engine.queue := by
  have k : ({ t.engine with drain := [] } : Engine) = { s.engine with drain := [] } := h.part .engine hc
  exact (congrArg Engine.queue k :)

theorem Keeps.deferredAdmission {c : List Part} {s t : State} (h : Keeps c s t) (hc : c.contains .log = false) :
    t.log.deferred = s.log.deferred := by
  have k : ({ t.log with formatDrain := [] } : LogState) = { s.log with formatDrain := [] } := h.part .log hc
  exact (congrArg LogState.deferred k :)

theorem Keeps.flag {c : List Part} {s t : State} (h : Keeps c s t) (n : Source) (hc : c.contains .notices = false) :
    t.flag n = s.flag n := by
  rw [State.flag, h.part .notices hc]
  rfl

/-- A notice set besides. -/
theorem Keeps.notice {c : List Part} {s t : State} (h : Keeps c s t) (n : Source) (hc : c.contains .notices = true) :
    Keeps c s (t.setNotice n) :=
  h.trans ((Keeps.setNotice t n).mono (by simpa using hc))

theorem State.hasBusyGroup_congr {s t : State} (hb : t.writer.builder = s.writer.builder)
    (hg : t.writer.granted = s.writer.granted) (r : RegionId) : t.hasBusyGroup r = s.hasBusyGroup r := by
  rw [State.hasBusyGroup, hb, hg]
  rfl

/-- Outside reset an event acts. -/
theorem State.unlessReset_acts {s : State} (h : s.inReset = false) (f : State → State) : s.unlessReset f = f s := by
  rw [State.unlessReset, h]
  rfl

/-! ## Groups that wait (R79, R80) -/

/-- Region `r`'s DEFERRED group is the one the Log Writer holds. -/
def State.defers (s : State) (r : RegionId) : Prop := ∃ d, s.writer.deferred = some d ∧ d.region = r

theorem State.defers_iff (s : State) (r : RegionId) :
    s.defers r ↔ s.writer.deferred.any (fun g => g.region == r) = true := by
  simp [State.defers, Option.any_eq_true]

/-- Region `r`'s HELD group is discarded and its DEFERRED group withdrawn, and the Log Writer's other work stands. -/
structure GroupsDropped (s t : State) (r : RegionId) : Prop where
  held : t.writer.held.get r = none
  others : ∀ q, q ≠ r → t.writer.held.get q = s.writer.held.get q
  builder : t.writer.builder = s.writer.builder
  granted : t.writer.granted = s.writer.granted
  closing : t.writer.closing = s.writer.closing
  lastServed : t.writer.lastServed = s.writer.lastServed
  withdrawn : s.defers r → t.writer.deferred = none ∧ t.log.deferred = none
  stands : ¬s.defers r → t.writer.deferred = s.writer.deferred ∧ t.log.deferred = s.log.deferred

theorem get_set_self {α : Type} {n : Nat} (v : Vector α n) (i : Fin n) (a : α) : (v.set i.val a).get i = a := by
  simp [Vector.get_eq_getElem]

theorem get_set_other {α : Type} {n : Nat} (v : Vector α n) {i j : Fin n} (h : j ≠ i) (a : α) :
    (v.set i.val a).get j = v.get j := by
  have hv : i.val ≠ j.val := fun k => h (Fin.ext k.symm)
  simp [Vector.get_eq_getElem, hv]

theorem State.dropWaitingGroups_effect (s : State) (r : RegionId) :
    GroupsDropped s (s.dropWaitingGroups r) r ∧ Keeps [.writer, .log] s (s.dropWaitingGroups r) := by
  have held := get_set_self s.writer.held r none
  have others (q : RegionId) (h : q ≠ r) := get_set_other s.writer.held h none
  have discard : Keeps [.writer, .log] s (s.updWriter fun w => { w with held := w.held.set r.val none }) :=
    (Keeps.updWriter s _).mono (by decide)
  unfold State.dropWaitingGroups
  dsimp only
  split_ifs with h
  · exact ⟨⟨held, others, rfl, rfl, rfl, rfl, fun _ => ⟨rfl, rfl⟩, fun k => absurd ((s.defers_iff r).mpr h) k⟩,
      (discard.trans ((Keeps.updWriter _ _).mono (by decide))).trans ((Keeps.updLog _ rfl).mono (by decide))⟩
  · exact ⟨⟨held, others, rfl, rfl, rfl, rfl, fun k => absurd ((s.defers_iff r).mp k) h, fun _ => ⟨rfl, rfl⟩⟩, discard⟩

/-- The writes of an aborted region leave the Log Writer, and its waiting groups are dropped (R22, R80). -/
def State.withdrawn (s : State) (r : RegionId) : State :=
  (s.moveEntries (s.abortMoves r) .waitRegion).dropWaitingGroups r

theorem State.withdrawn_effect (s : State) (r : RegionId) :
    GroupsDropped s (s.withdrawn r) r ∧ Keeps [.writer, .log, .table] s (s.withdrawn r) := by
  obtain ⟨h, k⟩ := (s.moveEntries (s.abortMoves r) .waitRegion).dropWaitingGroups_effect r
  have moved : Keeps [.writer, .log, .table] s (s.moveEntries (s.abortMoves r) .waitRegion) :=
    (Keeps.moveEntries s _ _).mono (by decide)
  exact ⟨⟨h.held, h.others, h.builder, h.granted, h.closing, h.lastServed, h.withdrawn, h.stands⟩, moved.trans (k.mono (by decide))⟩

theorem State.regions_withdrawn (s : State) (r : RegionId) : (s.withdrawn r).regions = s.regions := by
  unfold State.withdrawn State.dropWaitingGroups
  dsimp only
  split_ifs <;> rfl

theorem State.engine_withdrawn (s : State) (r : RegionId) : (s.withdrawn r).engine = s.engine := by
  unfold State.withdrawn State.dropWaitingGroups
  dsimp only
  split_ifs <;> rfl

theorem State.table_withdrawn (s : State) (r : RegionId) :
    (s.withdrawn r).table = (s.moveEntries (s.abortMoves r) .waitRegion).table :=
  ((s.moveEntries (s.abortMoves r) .waitRegion).dropWaitingGroups_effect r).2.part .table rfl

/-- Dropped groups stay dropped where the Log Writer and the deferred admission stand. -/
theorem GroupsDropped.after {s t u : State} {r : RegionId} (h : GroupsDropped s t r) (hw : u.writer = t.writer)
    (hl : u.log.deferred = t.log.deferred) : GroupsDropped s u r := by
  constructor <;> simp only [hw, hl]
  · exact h.held
  · exact h.others
  · exact h.builder
  · exact h.granted
  · exact h.closing
  · exact h.lastServed
  · exact h.withdrawn
  · exact h.stands

/-! ## The abort (R22) -/

/-- What an abort of a transaction without records does. -/
structure AbortedIdle (s t : State) (r : RegionId) : Prop where
  region : ∃ live apply, (t.region r).bare = { s.region r with
    live := live, pendingApply := apply, txn := .idle, number := nextNumber (s.region r).number, sub := .none, drain := [],
    recordPhase := false, expiryDue := false }
  done : t.flag (rollbackDone r) = true
  flags : ∀ n, n ≠ faultSource → n ≠ rollbackDone r → t.flag n = s.flag n
  directory : t.directory = s.directory.filter fun d => d.region ≠ r
  groups : GroupsDropped s t r
  others : OtherRegions r s t
  keeps : Keeps [.regions, .drains, .directory, .log, .writer, .faults, .notices, .table, .responses] s t

/-- What an abort of a transaction with records, or an admitted group, does. -/
structure AbortedToWalk (s t : State) (r : RegionId) : Prop where
  region : t.region r = { s.region r with
    txn := .rollingBack, sub := .queued, drain := [], recordPhase := false, expiryDue := false }
  engine : t.engine = { s.engine with queue := s.engine.queue ++ [r] }
  directory : t.directory = s.directory.filter fun d => d.region ≠ r
  groups : GroupsDropped s t r
  table : t.table = (s.moveEntries (s.abortMoves r) .waitRegion).table
  others : OtherRegions r s t
  keeps : Keeps [.regions, .drains, .directory, .log, .writer, .engine, .table] s t

theorem State.region_queueWalk (s : State) (r q : RegionId) : (s.queueWalk r).region q =
    if r = q then { s.region r with
      txn := .rollingBack, sub := .queued, drain := [], recordPhase := false, expiryDue := false } else s.region q := by
  rw [State.queueWalk, State.region_updEngine, State.region_updRegion]

theorem State.region_withdrawn (s : State) (r q : RegionId) : (s.withdrawn r).region q = s.region q :=
  State.region_congr (s.regions_withdrawn r) q

theorem State.hasBusyGroup_withdrawn (s : State) (r : RegionId) : (s.withdrawn r).hasBusyGroup r = s.hasBusyGroup r :=
  State.hasBusyGroup_congr (s.withdrawn_effect r).1.builder (s.withdrawn_effect r).1.granted r

theorem State.abortTxn_eq (s : State) (r : RegionId) :
    s.abortTxn r =
      if (s.region r).records = 0 ∧ s.hasBusyGroup r = false then
        ((s.withdrawn r).returnToIdle r nextNumber).setNotice (rollbackDone r)
      else ((s.withdrawn r).freeDirectory r).queueWalk r := by
  have h : s.abortTxn r = if ((s.withdrawn r).region r).records = 0 ∧ (s.withdrawn r).hasBusyGroup r = false then
        ((s.withdrawn r).returnToIdle r nextNumber).setNotice (rollbackDone r)
      else ((s.withdrawn r).freeDirectory r).queueWalk r := rfl
  rwa [State.region_withdrawn, State.hasBusyGroup_withdrawn] at h

/-- A flag after its own event, and any other flag. -/
theorem State.flag_setNotice_self (s : State) (n : Source) : (s.setNotice n).flag n = true := by
  simp [State.flag_setNotice]

theorem State.flag_setNotice_other (s : State) {n m : Source} (h : m ≠ n) : (s.setNotice n).flag m = s.flag m := by
  rw [State.flag_setNotice, decide_eq_false (Ne.symm h)]
  rfl

theorem State.abortTxn_idle {s : State} {r : RegionId} (h0 : (s.region r).records = 0) (hb : s.hasBusyGroup r = false) :
    AbortedIdle s (s.abortTxn r) r := by
  rw [State.abortTxn_eq, if_pos ⟨h0, hb⟩]
  obtain ⟨groups, keeps⟩ := s.withdrawn_effect r
  have back := (s.withdrawn r).returnToIdle_effect r nextNumber
  rw [s.region_withdrawn r r] at back
  generalize (s.withdrawn r).returnToIdle r nextNumber = t at back ⊢
  refine ⟨?_, State.flag_setNotice_self _ _, fun n hf hn => ?_, ?_, ?_, ?_, ?_⟩
  · obtain ⟨live, apply, h⟩ := back.region
    rw [s.region_withdrawn r r] at h
    exact ⟨live, apply, h⟩
  · rw [State.flag_setNotice_other _ hn, back.flags n hf, keeps.flag _ rfl]
  · exact back.directory.trans (by rw [keeps.part .directory rfl])
  · exact groups.after (back.keeps.part .writer rfl) (back.keeps.deferredAdmission rfl)
  · exact (keeps.others r rfl).trans back.others
  · exact ((keeps.mono (by decide)).trans (back.keeps.mono (by decide))).notice _ rfl

theorem State.abortTxn_walk {s : State} {r : RegionId} (h : (s.region r).records ≠ 0 ∨ s.hasBusyGroup r = true) :
    AbortedToWalk s (s.abortTxn r) r := by
  have hn : ¬((s.region r).records = 0 ∧ s.hasBusyGroup r = false) := by
    rintro ⟨h0, hb⟩
    obtain h | h := h
    · exact h h0
    · rw [hb] at h
      cases h
  rw [State.abortTxn_eq, if_neg hn]
  obtain ⟨groups, keeps⟩ := s.withdrawn_effect r
  have region := s.region_withdrawn r
  have engine := s.engine_withdrawn r
  have table := s.table_withdrawn r
  generalize s.withdrawn r = w at groups keeps region engine table ⊢
  have walk : Keeps [.regions, .drains, .directory, .engine] w ((w.freeDirectory r).queueWalk r) :=
    ((Keeps.freeDirectory w r).mono (by decide)).trans
      (((Keeps.updContext _ r _).mono (by decide)).trans ((Keeps.updEngine _ rfl).mono (by decide)))
  refine ⟨?_, ?_, ?_, groups.after rfl rfl, table, ?_, (keeps.mono (by decide)).trans (walk.mono (by decide))⟩
  · rw [State.region_queueWalk, if_pos rfl, State.region_freeDirectory, region]
  · show { w.engine with queue := w.engine.queue ++ [r] } = _
    rw [engine]
  · show w.directory.filter _ = _
    rw [keeps.part .directory rfl]
  · intro q hq
    rw [State.region_queueWalk, if_neg (Ne.symm hq), State.region_freeDirectory, region]

theorem AbortedIdle.txn {s t : State} {r : RegionId} (h : AbortedIdle s t r) :
    (t.region r).txn = .idle ∧ (t.region r).number = nextNumber (s.region r).number := by
  obtain ⟨live, apply, k⟩ := h.region
  exact ⟨congrArg Region.txn k, congrArg Region.number k⟩

/-- Settles O23: the two ends of an abort, `abortTxn_idle` and `abortTxn_walk`. -/
theorem abortEndsOrQueuesTheTransaction : Obligations.AbortEndsOrQueuesTheTransaction := by
  intro b r s hl hs hb
  refine ⟨fun h => takes_plain hl hs hb rfl (if_neg h), fun h => ?_⟩
  have takes : Takes (.abort b) s .ok [] (s.abortTxn r).followOn := takes_plain hl hs hb rfl (if_pos h)
  have left {t : State} (g : GroupsDropped s t r) := And.intro g.held (And.intro g.others (And.intro g.builder
    (And.intro g.granted (And.intro g.closing (And.intro g.withdrawn g.stands)))))
  refine ⟨fun h0 hg => ?_, fun h0 => ?_⟩
  · have k := State.abortTxn_idle h0 hg
    obtain ⟨idle, number⟩ := k.txn
    exact ⟨_, takes, idle, number, k.done, k.directory, left k.groups, k.keeps.queue rfl, k.others, k.keeps⟩
  · have k := State.abortTxn_walk h0
    exact ⟨_, takes, k.region, k.engine, k.directory, left k.groups, k.table, k.others, k.keeps⟩

/-! ## An expiry (R28, R29) -/

/-- The expiry's own mark and notice. -/
def State.noteExpiry (s : State) (r : RegionId) : State :=
  (s.updRegion r fun x => { x with expiryDue := false }).setNotice (ageExpired r)

theorem State.region_noteExpiry (s : State) (r q : RegionId) :
    (s.noteExpiry r).region q = if r = q then { s.region r with expiryDue := false } else s.region q := by
  rw [State.noteExpiry, State.region_setNotice, State.region_updRegion]

theorem State.region_noteExpiry_self (s : State) (r : RegionId) :
    (s.noteExpiry r).region r = { s.region r with expiryDue := false } := by
  rw [State.region_noteExpiry, if_pos rfl]

theorem State.noteExpiry_keeps (s : State) (r : RegionId) : Keeps [.regions, .notices] s (s.noteExpiry r) :=
  ((Keeps.updRegion s r (fun x => { x with expiryDue := false }) rfl).mono (by decide)).notice _ rfl

theorem State.noteExpiry_others (s : State) (r : RegionId) : OtherRegions r s (s.noteExpiry r) := by
  intro q hq
  rw [State.region_noteExpiry, if_neg (Ne.symm hq)]

theorem State.expireAge_notify {s : State} {r : RegionId} (h : (s.region r).live.ageAction = .notify) :
    s.expireAge r = s.noteExpiry r := by
  have k : ((s.noteExpiry r).region r).live.ageAction = .notify := by rw [State.region_noteExpiry_self]; exact h
  unfold State.noteExpiry at k
  simp only [State.expireAge, k, State.noteExpiry]

theorem State.expireAge_abort {s : State} {r : RegionId} (h : (s.region r).live.ageAction = .abort) :
    s.expireAge r = (s.noteExpiry r).abortTxn r := by
  have k : ((s.noteExpiry r).region r).live.ageAction = .abort := by rw [State.region_noteExpiry_self]; exact h
  unfold State.noteExpiry at k
  simp only [State.expireAge, k, State.noteExpiry]

/-- The parts an expiry can change. -/
def expiryParts : List Part :=
  [.regions, .drains, .directory, .log, .writer, .engine, .faults, .notices, .table, .responses]

/-- An expiry with AGE_ACTION ABORT of a transaction without records, and of one with. -/
theorem State.expireAge_idle {s : State} {r : RegionId} (h : (s.region r).live.ageAction = .abort)
    (h0 : (s.region r).records = 0) (hb : s.hasBusyGroup r = false) : AbortedIdle (s.noteExpiry r) (s.expireAge r) r := by
  rw [State.expireAge_abort h]
  refine State.abortTxn_idle ?_ hb
  rw [State.region_noteExpiry_self]
  exact h0

theorem State.expireAge_walk {s : State} {r : RegionId} (h : (s.region r).live.ageAction = .abort)
    (h0 : (s.region r).records ≠ 0 ∨ s.hasBusyGroup r = true) : AbortedToWalk (s.noteExpiry r) (s.expireAge r) r := by
  rw [State.expireAge_abort h]
  refine State.abortTxn_walk ?_
  rw [State.region_noteExpiry_self]
  exact h0

/-- Whether an aborted transaction is walked. -/
def State.mustWalk (s : State) (r : RegionId) : Prop := (s.region r).records ≠ 0 ∨ s.hasBusyGroup r = true

theorem State.not_mustWalk {s : State} {r : RegionId} (h : ¬s.mustWalk r) :
    (s.region r).records = 0 ∧ s.hasBusyGroup r = false := by
  simpa [State.mustWalk] using h

/-- An expiry changes the parts named, and the context of its region alone. -/
theorem State.expireAge_keeps (s : State) (r : RegionId) :
    Keeps expiryParts s (s.expireAge r) ∧ OtherRegions r s (s.expireAge r) := by
  have note : Keeps expiryParts s (s.noteExpiry r) := (s.noteExpiry_keeps r).mono (by decide)
  have others := s.noteExpiry_others r
  cases h : (s.region r).live.ageAction with
  | notify =>
    rw [State.expireAge_notify h]
    exact ⟨note, others⟩
  | abort =>
    by_cases hw : s.mustWalk r
    · have k := State.expireAge_walk h hw
      exact ⟨note.trans (k.keeps.mono (by decide)), others.trans k.others⟩
    · obtain ⟨h0, hb⟩ := State.not_mustWalk hw
      have k := State.expireAge_idle h h0 hb
      exact ⟨note.trans (k.keeps.mono (by decide)), others.trans k.others⟩

theorem ageExpired_ne_faultSource (r : RegionId) : ageExpired r ≠ faultSource := by revert r; decide

theorem rollbackDone_ne_faultSource (r : RegionId) : rollbackDone r ≠ faultSource := by revert r; decide

theorem ageExpired_ne_rollbackDone (q r : RegionId) : ageExpired q ≠ rollbackDone r := by
  intro h
  have : 3 * q.val + 3 = 3 * r.val + 2 := congrArg Fin.val h
  omega

theorem State.flag_noteExpiry (s : State) (r : RegionId) : (s.noteExpiry r).flag (ageExpired r) = true :=
  State.flag_setNotice_self _ _

theorem State.flag_expireAge (s : State) (r : RegionId) : (s.expireAge r).flag (ageExpired r) = true := by
  cases h : (s.region r).live.ageAction with
  | notify =>
    rw [State.expireAge_notify h]
    exact s.flag_noteExpiry r
  | abort =>
    by_cases hw : s.mustWalk r
    · rw [(State.expireAge_walk h hw).keeps.flag _ rfl]
      exact s.flag_noteExpiry r
    · obtain ⟨h0, hb⟩ := State.not_mustWalk hw
      rw [(State.expireAge_idle h h0 hb).flags _ (ageExpired_ne_faultSource r) (ageExpired_ne_rollbackDone r r)]
      exact s.flag_noteExpiry r

theorem State.expiryDue_iff (s : State) (r : RegionId) :
    s.expiryDue r = true ↔ s.device = .run ∧ (s.region r).txn = .opened ∧ (s.region r).expiryDue = true := by
  simp [State.expiryDue, and_assoc]

theorem State.mayExpire_iff (s : State) (r : RegionId) :
    s.mayExpire r = true ↔ s.expiryDue r = true ∧ ∀ q, q < r → ¬s.expiryDue q = true := by
  simp only [State.mayExpire, Bool.and_eq_true, List.all_eq_true, Bool.or_eq_true, decide_eq_true_eq, Bool.not_eq_true',
    Bool.not_eq_true]
  refine and_congr_right fun _ => ⟨fun h q hq => ?_, fun h q _ => ?_⟩
  · exact (h q (mem_allRegions q)).resolve_left (not_le.mpr hq)
  · by_cases hq : r ≤ q
    · exact .inl hq
    · exact .inr (h q (not_le.mp hq))

/-- Settles O38. -/
theorem expiryNotifiesOrAborts : Obligations.ExpiryNotifiesOrAborts := by
  intro r s hi
  extract_lets due
  have he : exec (.ageExpiry r) s = .next (if s.mayExpire r then (s.expireAge r).followOn else s) :=
    congrArg Host.Outcome.next (State.unlessReset_acts hi _)
  have hdue (q : RegionId) : s.expiryDue q = true ↔ due q := s.expiryDue_iff q
  refine ⟨fun h => ?_, fun h first => ?_⟩
  · rw [he, if_neg]
    rw [State.mayExpire_iff]
    rintro ⟨k, first⟩
    obtain h | ⟨q, hq, h⟩ := h
    · exact h ((hdue r).mp k)
    · exact first q hq ((hdue q).mpr h)
  · rw [if_pos ((s.mayExpire_iff r).mpr ⟨(hdue r).mpr h, fun q hq k => first q hq ((hdue q).mp k)⟩)] at he
    obtain ⟨keeps, others⟩ := s.expireAge_keeps r
    refine ⟨_, he, s.flag_expireAge r, others, fun ha => ?_, fun ha => ⟨keeps, fun h0 hb => ?_, fun h0 => ?_⟩⟩
    · rw [State.expireAge_notify ha]
      exact ⟨s.region_noteExpiry_self r, s.noteExpiry_keeps r⟩
    · have k := State.expireAge_idle ha h0 hb
      exact ⟨k.txn.1, k.done, (k.keeps.queue rfl).trans ((s.noteExpiry_keeps r).queue rfl)⟩
    · have k := State.expireAge_walk ha h0
      exact ⟨congrArg Region.txn k.region, congrArg Region.sub k.region, congrArg Engine.queue k.engine⟩

/-! ## The commit without records (R20, R21) -/

/-- What the completion of a commit without records does. -/
structure CommittedIdle (s t : State) (r : RegionId) : Prop where
  txn : (t.region r).txn = .idle
  number : (t.region r).number = nextNumber (s.region r).number
  done : t.flag (commitDone r) = true
  directory : t.directory = s.directory.filter fun d => d.region ≠ r
  others : OtherRegions r s t
  keeps : Keeps [.regions, .drains, .directory, .faults, .notices, .table, .responses] s t
  responses : ∃ more, t.responses = s.responses ++ more

theorem State.completeCommit_idle {s : State} {r : RegionId} (h : (s.region r).records = 0) :
    CommittedIdle s (s.completeCommit r) r := by
  have e : s.completeCommit r = (s.returnToIdle r nextNumber).setNotice (commitDone r) := by
    unfold State.completeCommit
    rw [if_pos h]
  have back := s.returnToIdle_effect r nextNumber
  have kept := Kept.returnToIdle s r nextNumber
  rw [e]
  generalize s.returnToIdle r nextNumber = t at back kept ⊢
  obtain ⟨live, apply, k⟩ := back.region
  exact ⟨congrArg Region.txn k, congrArg Region.number k, State.flag_setNotice_self _ _, back.directory, back.others,
    back.keeps.notice _ rfl, kept.responses⟩

theorem State.commitDrained_iff (s : State) (r : RegionId) :
    s.commitDrained r = true ↔ s.device = .run ∧ (s.region r).txn = .committing ∧ (s.region r).drain = [] ∧
      (s.region r).recordPhase = false := by
  simp [State.commitDrained, and_assoc]

theorem State.commitPhase_empty {s : State} {r : RegionId} (h : (s.region r).records = 0) :
    s.commitPhase r = s.completeCommit r := if_pos h

theorem State.commitPhase_records {s : State} {r : RegionId} (h : (s.region r).records ≠ 0) :
    s.commitPhase r = (s.updRegion r fun x => { x with recordPhase := true }).updWriter fun w =>
      { w with closing := w.closing ++
        [⟨r, (s.region r).number, .commit, (s.region r).firstIndex.getD 0, false⟩] } := if_neg h

/-- Settles O45. -/
theorem commitDrainBringsTheRecordPhase : Obligations.CommitDrainBringsTheRecordPhase := by
  intro r s hi
  extract_lets drained
  have he : exec (.commitDrainComplete r) s = .next (if s.commitDrained r then (s.commitPhase r).followOn else s) :=
    congrArg Host.Outcome.next (State.unlessReset_acts hi _)
  have hd : s.commitDrained r = true ↔ drained := s.commitDrained_iff r
  refine ⟨fun h => ?_, fun h h0 => ?_, fun h h0 => ?_⟩
  · rw [he, if_neg fun k => h (hd.mp k)]
  · rw [he, if_pos (hd.mpr h), State.commitPhase_records h0]
  · rw [if_pos (hd.mpr h), State.commitPhase_empty h0] at he
    have k := State.completeCommit_idle h0
    exact ⟨_, he, k.txn, k.number, k.done, k.directory, k.keeps.part .writer rfl, k.others, k.keeps⟩

/-! ## COMMIT (R17, R18) -/

/-- The members and the lines with directory entries of a region's HELD group, none without one. -/
def State.heldMembers (s : State) (r : RegionId) : List HostTag := (s.writer.held.get r).elim [] fun h => h.group.members

def State.heldTracked (s : State) (r : RegionId) : List Nat := (s.writer.held.get r).elim [] fun h => h.group.tracked

/-- What COMMIT does to a HELD group (R18). -/
structure HeldRefused (s t : State) (r : RegionId) : Prop where
  table : t.table = s.table.filter fun e => !(s.heldMembers r).contains e.tag
  responses : t.responses = s.responses ++
    (s.table.filter fun e => (s.heldMembers r).contains e.tag).map fun e => e.errResponse .noSpace
  directory : t.directory = s.directory.filter fun d => !(d.region == r && !d.durable && (s.heldTracked r).contains d.line)
  held : t.writer.held.get r = none
  others : ∀ q, q ≠ r → t.writer.held.get q = s.writer.held.get q
  builder : t.writer.builder = s.writer.builder
  closing : t.writer.closing = s.writer.closing
  keeps : Keeps [.drains, .directory, .writer, .table, .responses] s t

theorem State.refuseHeld_effect (s : State) (r : RegionId) : HeldRefused s (s.refuseHeld r) r := by
  unfold State.refuseHeld
  split
  · next h hh =>
    have members : s.heldMembers r = h.group.members := by rw [State.heldMembers, hh]; rfl
    have tracked : s.heldTracked r = h.group.tracked := by rw [State.heldTracked, hh]; rfl
    let a := s.updWriter fun w => { w with held := w.held.set r.val none }
    have start : Keeps [.drains, .directory, .writer, .table, .responses] s a :=
      (Keeps.updWriter s _).mono (by decide)
    obtain ⟨table, responses⟩ := a.answerMembers h.group.members .noSpace
    have answer := Keeps.answerErrors a (a.entriesOf h.group.members) fun _ => .noSpace
    show HeldRefused s ((a.answerErrors (a.entriesOf h.group.members) fun _ => .noSpace).dropPending r h.group.tracked) r
    generalize (a.answerErrors (a.entriesOf h.group.members) fun _ => .noSpace) = b at table responses answer ⊢
    have writer : b.writer = a.writer := answer.part .writer rfl
    have drop : Keeps [.drains, .directory, .writer, .table, .responses] b (b.dropPending r h.group.tracked) :=
      (Keeps.dropPending b r _).mono (by decide)
    refine ⟨?_, ?_, ?_, ?_, fun q hq => ?_, ?_, ?_, (start.trans (answer.mono (by decide))).trans drop⟩
    · rw [members]
      exact table
    · rw [members]
      exact responses
    · rw [tracked]
      show b.directory.filter _ = _
      rw [answer.part .directory rfl]
      simp [a]
    · show b.writer.held.get r = _
      rw [writer]
      exact get_set_self _ r none
    · show b.writer.held.get q = _
      rw [writer]
      exact get_set_other _ hq none
    · exact (congrArg LogWriter.builder writer :)
    · exact (congrArg LogWriter.closing writer :)
  · next hh =>
    have members : s.heldMembers r = [] := by rw [State.heldMembers, hh]; rfl
    have tracked : s.heldTracked r = [] := by rw [State.heldTracked, hh]; rfl
    refine ⟨?_, ?_, ?_, hh, fun _ _ => rfl, rfl, rfl, .refl _ s⟩
    · simp [members]
    · simp [members]
    · simp [tracked]

/-- The context of a region whose commit is taken, its drain set apart (R18). -/
def State.startCommit (s : State) (r : RegionId) : State :=
  s.updRegion r fun x => { x with txn := .committing, recordPhase := false, expiryDue := false }

/-- The drain set fixed after the HELD group is answered (R18). -/
def State.fixDrain (s : State) (r : RegionId) : State :=
  s.updRegion r fun x => { x with drain := s.commitDrainSet r }

theorem State.takeCommit_eq (s : State) (r : RegionId) :
    s.takeCommit r =
      let t := ((s.startCommit r).refuseHeld r).fixDrain r
      if (((s.startCommit r).refuseHeld r).commitDrainSet r).isEmpty ∧ (t.region r).records = 0 then t.completeCommit r
      else t := rfl

/-- The drain set of a commit taken now: every write in the live window that no HELD group of the region holds (R18). -/
def State.drainAtCommit (s : State) (r : RegionId) : List HostTag :=
  ((s.table.filter fun e => !(s.heldMembers r).contains e.tag).filter fun e =>
    e.op = .write ∧ (s.region r).live.holds e.addr = true).map Entry.tag

/-- What COMMIT does before it is seen whether the commit completes at once (R18). -/
structure CommitTaken (s t : State) (r : RegionId) : Prop where
  region : t.region r =
    { s.region r with txn := .committing, drain := s.drainAtCommit r, recordPhase := false, expiryDue := false }
  table : t.table = s.table.filter fun e => !(s.heldMembers r).contains e.tag
  responses : t.responses = s.responses ++
    (s.table.filter fun e => (s.heldMembers r).contains e.tag).map fun e => e.errResponse .noSpace
  held : t.writer.held.get r = none
  directory : t.directory = s.directory.filter fun d => !(d.region == r && !d.durable && (s.heldTracked r).contains d.line)
  heldOthers : ∀ q, q ≠ r → t.writer.held.get q = s.writer.held.get q
  builder : t.writer.builder = s.writer.builder
  closing : t.writer.closing = s.writer.closing
  others : OtherRegions r s t
  keeps : Keeps [.regions, .drains, .directory, .writer, .table, .responses] s t

theorem State.fixDrain_taken (s : State) (r : RegionId) :
    (((s.startCommit r).refuseHeld r).commitDrainSet r) = s.drainAtCommit r ∧
      CommitTaken s (((s.startCommit r).refuseHeld r).fixDrain r) r := by
  have refused := (s.startCommit r).refuseHeld_effect r
  generalize (s.startCommit r).refuseHeld r = b at refused ⊢
  have started : (s.startCommit r).region r = { s.region r with txn := .committing, recordPhase := false, expiryDue := false } :=
    State.region_updRegion_self s r _
  have bare : (b.region r).bare = ((s.startCommit r).region r).bare := refused.keeps.bare rfl r
  have live : (b.region r).live = (s.region r).live := by
    have k : (b.region r).live = ((s.startCommit r).region r).live := (congrArg Region.live bare :)
    rw [k, started]
  have drain : b.commitDrainSet r = s.drainAtCommit r := by
    unfold State.commitDrainSet State.drainAtCommit
    rw [live, refused.table]
    congr 2
    funext e
    simp [Bool.beq_eq_decide_eq]
  have start : Keeps [.regions] s (s.startCommit r) := .updRegion s r _ rfl
  have fix : Keeps [.regions, .drains] b (b.fixDrain r) := .updContext b r _
  refine ⟨drain, ?_, ?_, ?_, ?_, ?_, ?_, ?_, ?_, ?_, ?_⟩
  · rw [State.fixDrain, State.region_updRegion_self, drain]
    have k := congrArg (fun x : Region => { x with drain := s.drainAtCommit r }) bare
    rw [started] at k
    exact k
  · exact refused.table
  · exact refused.responses
  · exact refused.held
  · exact refused.directory
  · exact refused.others
  · exact refused.builder
  · exact refused.closing
  · exact ((OtherRegions.updRegion s r _).trans (refused.keeps.others r rfl)).trans (.updRegion b r _)
  · exact (start.mono (by decide)).trans ((refused.keeps.mono (by decide)).trans (fix.mono (by decide)))

theorem State.takeCommit_waits {s : State} {r : RegionId} (h : ¬(s.drainAtCommit r = [] ∧ (s.region r).records = 0)) :
    CommitTaken s (s.takeCommit r) r := by
  obtain ⟨drain, k⟩ := s.fixDrain_taken r
  rw [State.takeCommit_eq]
  dsimp only
  rw [drain, if_neg]
  · exact k
  · rw [List.isEmpty_iff, k.region]
    exact h

theorem State.takeCommit_completes {s : State} {r : RegionId} (hd : s.drainAtCommit r = []) (h0 : (s.region r).records = 0) :
    ∃ t, CommitTaken s t r ∧ CommittedIdle t (s.takeCommit r) r := by
  obtain ⟨drain, k⟩ := s.fixDrain_taken r
  refine ⟨_, k, ?_⟩
  have records : ((((s.startCommit r).refuseHeld r).fixDrain r).region r).records = 0 := by rw [k.region]; exact h0
  rw [State.takeCommit_eq]
  dsimp only
  rw [drain, if_pos ⟨List.isEmpty_iff.mpr hd, records⟩]
  exact State.completeCommit_idle records

/-- The entries a region holds are not lost by removing PENDING ones first. -/
theorem filter_pending_of_region (l : List DirEntry) (r : RegionId) (lines : List Nat) :
    (l.filter fun d => !(d.region == r && !d.durable && lines.contains d.line)).filter (fun d => d.region ≠ r) =
      l.filter fun d => d.region ≠ r := by
  rw [List.filter_filter]
  refine List.filter_congr fun d _ => ?_
  by_cases h : d.region = r <;> simp [h]

/-- Settles O22. -/
theorem commitFixesItsDrainSet : Obligations.CommitFixesItsDrainSet := by
  intro b r s hl hs hb
  refine ⟨fun h => takes_plain hl hs hb rfl (if_neg h), fun h => ?_⟩
  have takes : Takes (.commit b) s .ok [] (s.takeCommit r).followOn := takes_plain hl hs hb rfl (if_pos h)
  refine ⟨_, takes, fun hd h0 => ?_, fun hn => ?_⟩
  · obtain ⟨t, taken, k⟩ := State.takeCommit_completes hd h0
    refine ⟨k.txn, ?_, k.done, ?_, ?_, taken.others.trans k.others, (taken.keeps.mono (by decide)).trans (k.keeps.mono (by decide))⟩
    · rw [k.number, taken.region]
    · rw [k.directory, taken.directory, filter_pending_of_region]
    · obtain ⟨more, hm⟩ := k.responses
      exact ⟨more, by rw [hm, taken.responses]; rfl⟩
  · have k := State.takeCommit_waits hn
    exact ⟨k.region, k.table, k.responses, k.held, k.directory, k.heldOthers, k.builder, k.closing, k.others, k.keeps⟩

end Sys2Proof.Machine
end

section
/-! SUPPORT. The expiries of a tick, region by region: what each does to its own region and what it leaves of the others
(R28, R29, R84). -/

namespace Sys2Proof.Machine

/-! ## Which expiries abort, and which join the rollback queue -/

/-- Region `r`'s expiry is due and aborts its transaction. -/
def State.ageAborts (s : State) (r : RegionId) : Bool := s.expiryDue r && (s.region r).live.ageAction == .abort

/-- Region `r`'s expiry is due and puts it in the rollback queue. -/
def State.ageWalks (s : State) (r : RegionId) : Bool :=
  s.ageAborts r && ((s.region r).records != 0 || s.hasBusyGroup r)

theorem State.ageAborts_iff (s : State) (r : RegionId) :
    s.ageAborts r = true ↔ s.expiryDue r = true ∧ (s.region r).live.ageAction = .abort := by
  simp [State.ageAborts]

theorem State.ageWalks_iff (s : State) (r : RegionId) :
    s.ageWalks r = true ↔ s.ageAborts r = true ∧ s.mustWalk r := by
  simp [State.ageWalks, State.mustWalk]

theorem State.not_abort_iff {s : State} {r : RegionId} : (s.region r).live.ageAction ≠ .abort ↔
    (s.region r).live.ageAction = .notify := by
  cases (s.region r).live.ageAction <;> simp

/-- The expiries of the regions `l`, taken from `u` on, have left `t`. -/
structure Expired (l : List RegionId) (u t : State) : Prop where
  builder : t.writer.builder = u.writer.builder
  granted : t.writer.granted = u.writer.granted
  keeps : Keeps expiryParts u t
  age : ∀ r, (t.region r).age = (u.region r).age
  stands : ∀ r, r ∉ l ∨ u.expiryDue r = false → (t.region r).bare = (u.region r).bare
  cleared : ∀ r ∈ l, u.expiryDue r = true → (t.region r).expiryDue = false
  notified : ∀ r ∈ l, u.ageAborts r = false →
    { (t.region r).bare with expiryDue := false } = { (u.region r).bare with expiryDue := false }
  ended : ∀ r ∈ l, u.ageAborts r = true → u.ageWalks r = false →
    (t.region r).txn = .idle ∧ (t.region r).number = nextNumber (u.region r).number
  walking : ∀ r ∈ l, u.ageWalks r = true → (t.region r).txn = .rollingBack ∧ (t.region r).sub = .queued
  expired : ∀ r, t.flag (ageExpired r) = true ↔ u.flag (ageExpired r) = true ∨ r ∈ l ∧ u.expiryDue r = true
  rolledBack : ∀ r, t.flag (rollbackDone r) = true ↔
    u.flag (rollbackDone r) = true ∨ r ∈ l ∧ u.ageAborts r = true ∧ u.ageWalks r = false
  queue : t.engine.queue = u.engine.queue ++ l.filter u.ageWalks
  quiet : (∀ r ∈ l, u.expiryDue r = false) → t = u
  gentle : (∀ r ∈ l, u.ageAborts r = false) → Keeps [.regions, .notices] u t

theorem Expired.nil (u : State) : Expired [] u u where
  builder := rfl
  granted := rfl
  keeps := .refl _ u
  age _ := rfl
  stands _ _ := rfl
  cleared _ h := absurd h List.not_mem_nil
  notified _ h := absurd h List.not_mem_nil
  ended _ h := absurd h List.not_mem_nil
  walking _ h := absurd h List.not_mem_nil
  expired _ := by simp
  rolledBack _ := by simp
  queue := by simp
  quiet _ := rfl
  gentle _ := .refl _ u

/-! ## One expiry -/

/-- An expiry that is not due is none. -/
theorem Expired.notDue {u : State} {r : RegionId} (h : u.expiryDue r = false) : Expired [r] u u := by
  have ha : u.ageAborts r = false := by rw [State.ageAborts, h]; rfl
  have hw : u.ageWalks r = false := by rw [State.ageWalks, ha]; rfl
  have single {q : RegionId} (hq : q ∈ [r]) : q = r := by simpa using hq
  constructor
  case builder | granted => rfl
  case keeps | gentle => intros; exact .refl _ u
  case age | stands | quiet => intros; rfl
  case cleared => intro q hq hd; rw [single hq, h] at hd; cases hd
  case notified => intros; rfl
  case ended => intro q hq hd; rw [single hq, ha] at hd; cases hd
  case walking => intro q hq hd; rw [single hq, hw] at hd; cases hd
  case expired =>
    intro q
    refine (or_iff_left ?_).symm
    rintro ⟨hq, hd⟩
    rw [single hq, h] at hd
    cases hd
  case rolledBack =>
    intro q
    refine (or_iff_left ?_).symm
    rintro ⟨hq, hd, -⟩
    rw [single hq, ha] at hd
    cases hd
  case queue => simp [hw]

/-- An expiry that is due, said of its own region. -/
theorem Expired.single {u t : State} {r : RegionId} (due : u.expiryDue r = true)
    (builder : t.writer.builder = u.writer.builder) (granted : t.writer.granted = u.writer.granted)
    (keeps : Keeps expiryParts u t) (others : OtherRegions r u t) (age : (t.region r).age = (u.region r).age)
    (cleared : (t.region r).expiryDue = false)
    (notified : u.ageAborts r = false →
      { (t.region r).bare with expiryDue := false } = { (u.region r).bare with expiryDue := false })
    (ended : u.ageAborts r = true → u.ageWalks r = false →
      (t.region r).txn = .idle ∧ (t.region r).number = nextNumber (u.region r).number)
    (walking : u.ageWalks r = true → (t.region r).txn = .rollingBack ∧ (t.region r).sub = .queued)
    (expired : ∀ q, t.flag (ageExpired q) = true ↔ u.flag (ageExpired q) = true ∨ q = r)
    (rolledBack : ∀ q, t.flag (rollbackDone q) = true ↔
      u.flag (rollbackDone q) = true ∨ q = r ∧ u.ageAborts r = true ∧ u.ageWalks r = false)
    (queue : t.engine.queue = u.engine.queue ++ if u.ageWalks r then [r] else [])
    (gentle : u.ageAborts r = false → Keeps [.regions, .notices] u t) : Expired [r] u t := by
  have member : ∀ {P : RegionId → Prop}, P r → ∀ q ∈ [r], P q := by
    intro P hP q hq
    obtain rfl : q = r := by simpa using hq
    exact hP
  refine ⟨builder, granted, keeps, fun q => ?_, fun q hq => ?_, member fun _ => cleared, member notified, member ended,
    member walking, fun q => ?_, fun q => ?_, ?_, fun h => ?_, fun h => gentle (h r (by simp))⟩
  · by_cases h : q = r
    · rw [h]; exact age
    · exact (congrArg Region.age (show (t.region q).bare = (u.region q).bare from others q h) :)
  · refine others q ?_
    rintro rfl
    rw [due] at hq
    simp at hq
  · rw [expired q]
    refine or_congr_right ⟨?_, fun h => by simpa using h.1⟩
    rintro rfl
    exact ⟨by simp, due⟩
  · rw [rolledBack q]
    refine or_congr_right ⟨?_, ?_⟩
    · rintro ⟨rfl, h⟩
      exact ⟨by simp, h⟩
    · rintro ⟨hq, h⟩
      obtain rfl : q = r := by simpa using hq
      exact ⟨rfl, h⟩
  · rw [queue]
    simp [List.filter_cons]
  · rw [h r (by simp)] at due
    cases due

theorem ageExpired_inj {q r : RegionId} : ageExpired q = ageExpired r ↔ q = r := by revert q r; decide

theorem rollbackDone_inj {q r : RegionId} : rollbackDone q = rollbackDone r ↔ q = r := by revert q r; decide

/-- The flags after an expiry's notice. -/
theorem State.expired_noteExpiry (u : State) (r q : RegionId) :
    (u.noteExpiry r).flag (ageExpired q) = true ↔ u.flag (ageExpired q) = true ∨ q = r := by
  rw [State.noteExpiry, State.flag_setNotice, State.flag_updRegion, Bool.or_eq_true, decide_eq_true_eq, ageExpired_inj,
    or_comm, @eq_comm _ r q]

theorem State.rolledBack_noteExpiry (u : State) (r q : RegionId) :
    (u.noteExpiry r).flag (rollbackDone q) = u.flag (rollbackDone q) := by
  rw [State.noteExpiry, State.flag_setNotice_other _ (ageExpired_ne_rollbackDone r q).symm, State.flag_updRegion]

theorem Expired.notify {u : State} {r : RegionId} (due : u.expiryDue r = true) (ha : u.ageAborts r = false) :
    Expired [r] u (u.expireAge r) := by
  have hn : (u.region r).live.ageAction = .notify := by
    refine State.not_abort_iff.mp fun h => ?_
    rw [(u.ageAborts_iff r).mpr ⟨due, h⟩] at ha
    cases ha
  have hw : u.ageWalks r = false := by rw [State.ageWalks, ha]; rfl
  have region := u.region_noteExpiry_self r
  rw [State.expireAge_notify hn]
  refine .single due rfl rfl ((u.noteExpiry_keeps r).mono (by decide)) (u.noteExpiry_others r) ?_ ?_ (fun _ => ?_)
    (fun h => ?_) (fun h => ?_) (u.expired_noteExpiry r) (fun q => ?_) ?_ fun _ => u.noteExpiry_keeps r
  · rw [region]
  · rw [region]
  · rw [region]; rfl
  · rw [ha] at h; cases h
  · rw [hw] at h; cases h
  · rw [u.rolledBack_noteExpiry, ha]; simp
  · rw [hw]; exact (List.append_nil _).symm

theorem Expired.idle {u : State} {r : RegionId} (due : u.expiryDue r = true) (ha : u.ageAborts r = true)
    (hw : u.ageWalks r = false) : Expired [r] u (u.expireAge r) := by
  obtain ⟨-, action⟩ := (u.ageAborts_iff r).mp ha
  have notWalk : ¬u.mustWalk r := fun h => by
    rw [(u.ageWalks_iff r).mpr ⟨ha, h⟩] at hw
    cases hw
  obtain ⟨h0, hb⟩ := State.not_mustWalk notWalk
  have k := State.expireAge_idle action h0 hb
  have region := u.region_noteExpiry_self r
  obtain ⟨keeps, others⟩ := u.expireAge_keeps r
  obtain ⟨live, apply, bare⟩ := k.region
  rw [region] at bare
  refine .single due k.groups.builder k.groups.granted keeps others (congrArg Region.age bare :)
    (congrArg Region.expiryDue bare :) (fun h => ?_) (fun _ _ => ?_) (fun h => ?_) (fun q => ?_) (fun q => ?_) ?_
    fun h => ?_
  · rw [ha] at h; cases h
  · exact ⟨(congrArg Region.txn bare :), (congrArg Region.number bare :)⟩
  · rw [hw] at h; cases h
  · rw [k.flags _ (ageExpired_ne_faultSource q) (ageExpired_ne_rollbackDone q r)]
    exact u.expired_noteExpiry r q
  · by_cases h : q = r
    · subst h
      simp [k.done, ha, hw]
    · rw [k.flags _ (rollbackDone_ne_faultSource q) (fun j => h (rollbackDone_inj.mp j)), u.rolledBack_noteExpiry]
      simp [h]
  · rw [hw, k.keeps.queue rfl]
    exact (List.append_nil _).symm
  · rw [ha] at h; cases h

theorem Expired.walk {u : State} {r : RegionId} (due : u.expiryDue r = true) (hw : u.ageWalks r = true) :
    Expired [r] u (u.expireAge r) := by
  obtain ⟨ha, must⟩ := (u.ageWalks_iff r).mp hw
  obtain ⟨-, action⟩ := (u.ageAborts_iff r).mp ha
  have k := State.expireAge_walk action must
  have region := k.region
  rw [u.region_noteExpiry_self r] at region
  obtain ⟨keeps, others⟩ := u.expireAge_keeps r
  refine .single due k.groups.builder k.groups.granted keeps others ?_ ?_ (fun h => ?_) (fun _ h => ?_) (fun _ => ?_)
    (fun q => ?_) (fun q => ?_) ?_ fun h => ?_
  · rw [region]
  · rw [region]
  · rw [ha] at h; cases h
  · rw [hw] at h; cases h
  · rw [region]; exact ⟨rfl, rfl⟩
  · rw [k.keeps.flag _ rfl]
    exact u.expired_noteExpiry r q
  · rw [k.keeps.flag _ rfl, u.rolledBack_noteExpiry, hw]
    simp
  · rw [k.engine, hw]
    rfl
  · rw [ha] at h; cases h

/-- A region's expiry, due or not. -/
theorem Expired.one (u : State) (r : RegionId) : Expired [r] u (u.takeExpiry r) := by
  obtain ⟨due, e⟩ | ⟨h, e⟩ := u.takeExpiry_cases r <;> rw [e]
  · cases ha : u.ageAborts r with
    | false => exact .notify due ha
    | true =>
      cases hw : u.ageWalks r with
      | false => exact .idle due ha hw
      | true => exact .walk due hw
  · exact .notDue h

/-! ## One expiry after another -/

/-- What the expiries of other regions leave of a region is what its own expiry asks about. -/
theorem Expired.same {l : List RegionId} {u t : State} (h : Expired l u t) {r : RegionId} (hr : r ∉ l) :
    (t.region r).bare = (u.region r).bare ∧ t.expiryDue r = u.expiryDue r ∧ t.ageAborts r = u.ageAborts r ∧
      t.ageWalks r = u.ageWalks r := by
  have bare := h.stands r (.inl hr)
  have txn : (t.region r).txn = (u.region r).txn := (congrArg Region.txn bare :)
  have mark : (t.region r).expiryDue = (u.region r).expiryDue := (congrArg Region.expiryDue bare :)
  have live : (t.region r).live = (u.region r).live := (congrArg Region.live bare :)
  have records : (t.region r).records = (u.region r).records := (congrArg Region.records bare :)
  have due : t.expiryDue r = u.expiryDue r := by
    rw [State.expiryDue, h.keeps.part .device rfl, txn, mark]
    rfl
  have aborts : t.ageAborts r = u.ageAborts r := by
    rw [State.ageAborts, due, live]
    rfl
  refine ⟨bare, due, aborts, ?_⟩
  rw [State.ageWalks, aborts, records, State.hasBusyGroup_congr h.builder h.granted]
  rfl

theorem Expired.append {k l : List RegionId} {u t v : State} (a : Expired k u t) (b : Expired l t v)
    (hd : ∀ r ∈ l, r ∉ k) : Expired (k ++ l) u v := by
  have left {r : RegionId} (hr : r ∈ k) : (v.region r).bare = (t.region r).bare :=
    b.stands r (.inl fun h => hd r h hr)
  have right {r : RegionId} (hr : r ∈ l) := a.same (hd r hr)
  have split {P : RegionId → Prop} (hk : ∀ r ∈ k, P r) (hl : ∀ r ∈ l, P r) : ∀ r ∈ k ++ l, P r := fun r hr =>
    (List.mem_append.mp hr).elim (hk r) (hl r)
  constructor
  case builder => exact b.builder.trans a.builder
  case granted => exact b.granted.trans a.granted
  case keeps => exact a.keeps.trans b.keeps
  case age => exact fun r => (b.age r).trans (a.age r)
  case stands =>
    intro r hr
    by_cases hk : r ∈ k
    · obtain h | h := hr
      · exact absurd (List.mem_append_left l hk) h
      · exact (left hk).trans (a.stands r (.inr h))
    · obtain ⟨bare, due, -⟩ := a.same hk
      refine (b.stands r ?_).trans bare
      rw [due]
      exact hr.imp_left fun h j => h (List.mem_append_right k j)
  case cleared =>
    refine split (fun r hr h => ?_) fun r hr h => ?_
    · exact (congrArg Region.expiryDue (left hr)).trans (a.cleared r hr h)
    · exact b.cleared r hr ((right hr).2.1.trans h)
  case notified =>
    refine split (fun r hr h => ?_) fun r hr h => ?_
    · rw [left hr]
      exact a.notified r hr h
    · obtain ⟨bare, -, aborts, -⟩ := right hr
      rw [b.notified r hr (aborts.trans h), bare]
  case ended =>
    refine split (fun r hr h h' => ?_) fun r hr h h' => ?_
    · obtain ⟨idle, number⟩ := a.ended r hr h h'
      exact ⟨(congrArg Region.txn (left hr)).trans idle, (congrArg Region.number (left hr)).trans number⟩
    · obtain ⟨bare, -, aborts, walks⟩ := right hr
      obtain ⟨idle, number⟩ := b.ended r hr (aborts.trans h) (walks.trans h')
      exact ⟨idle, number.trans (congrArg nextNumber (congrArg Region.number bare :))⟩
  case walking =>
    refine split (fun r hr h => ?_) fun r hr h => ?_
    · obtain ⟨walking, queued⟩ := a.walking r hr h
      exact ⟨(congrArg Region.txn (left hr)).trans walking, (congrArg Region.sub (left hr)).trans queued⟩
    · exact b.walking r hr ((right hr).2.2.2.trans h)
  case expired =>
    intro r
    rw [b.expired, a.expired, List.mem_append, or_assoc, or_and_right]
    refine or_congr_right (or_congr_right (and_congr_right fun hr => ?_))
    rw [(right hr).2.1]
  case rolledBack =>
    intro r
    rw [b.rolledBack, a.rolledBack, List.mem_append, or_assoc, or_and_right]
    refine or_congr_right (or_congr_right (and_congr_right fun hr => ?_))
    obtain ⟨-, -, aborts, walks⟩ := right hr
    rw [aborts, walks]
  case queue =>
    rw [b.queue, a.queue, List.filter_append, List.append_assoc]
    congr 2
    exact List.filter_congr fun r hr => (right hr).2.2.2
  case quiet =>
    intro h
    have ht := a.quiet fun r hr => h r (List.mem_append_left l hr)
    subst ht
    exact b.quiet fun r hr => h r (List.mem_append_right k hr)
  case gentle =>
    intro h
    refine (a.gentle fun r hr => h r (List.mem_append_left l hr)).trans (b.gentle fun r hr => ?_)
    rw [(right hr).2.2.1]
    exact h r (List.mem_append_right k hr)

/-- The expiries of a tick, in ascending region number (R84). -/
theorem State.takeExpiries_expired (u : State) : Expired allRegions u u.takeExpiries := by
  have go (l : List RegionId) (hl : l.Nodup) : ∀ u : State, Expired l u (l.foldl State.takeExpiry u) := by
    induction l with
    | nil => exact .nil
    | cons r l ih =>
      intro u
      obtain ⟨hr, hl⟩ := List.nodup_cons.mp hl
      refine (Expired.one u r).append (ih hl _) fun q hq h => ?_
      obtain rfl : q = r := by simpa using h
      exact hr hq
  exact go allRegions allRegions_nodup u

/-! ## The tick (R26 to R29) -/

/-- A tick's advance of a count leaves the rest of the context but for the mark of an expiry. -/
theorem Region.ticked_fields (x : Region) :
    { x.ticked with age := 0, expiryDue := false } = { x with age := 0, expiryDue := false } := by
  unfold Region.ticked
  split_ifs <;> rfl

theorem Region.ticked_age (x : Region) :
    x.ticked.age = if x.txn = .opened ∧ x.age < 65535 then x.age + 1 else x.age := by
  unfold Region.ticked
  split_ifs with h h' h'
  · rfl
  · exact absurd h h'
  · exact absurd h' h
  · rfl

/-- An expiry is due after the advance when it was, or when the advance has reached a limit that is not 0 (R28). -/
theorem Region.ticked_expiryDue (x : Region) : x.ticked.expiryDue = true ↔ x.expiryDue = true ∨
    (x.txn = .opened ∧ x.age < 65535) ∧ x.live.ageLimit ≠ 0 ∧ x.age + 1 = x.live.ageLimit := by
  unfold Region.ticked
  split_ifs with h
  · have h' : x.txn = .opened ∧ x.age < 65535 := h
    simp [h']
  · have h' : ¬(x.txn = .opened ∧ x.age < 65535) := h
    simp [h']

/-- The advance of a count alone. -/
theorem Region.ticked_notDue {x : Region} (h : x.ticked.expiryDue = x.expiryDue) :
    { x.ticked with age := 0 } = { x with age := 0 } := by
  have k := congrArg (fun y : Region => { y with expiryDue := x.ticked.expiryDue }) x.ticked_fields
  refine k.trans ?_
  rw [h]

theorem State.tick_keeps (s : State) : Keeps [.timebase, .regions] s s.tick := by
  have drain (r : RegionId) : (s.tick.region r).drain = (s.region r).drain := by
    rw [State.region_tick]
    split_ifs
    · exact (congrArg Region.drain (Region.ticked_fields _) :)
    · rfl
  rw [s.tick_eq] at drain ⊢
  exact ⟨fun p hp => by cases p <;> simp_all [Part.same], rfl, rfl, rfl⟩

theorem State.timebase_tick (s : State) : s.tick.timebase = ⟨s.params.tickPeriod, s.timebase.elapsed + s.timebase.running⟩ := by
  rw [s.tick_eq]

/-- A tick leaves a context but for its count and the mark of an expiry. -/
theorem State.region_tick_fields (s : State) (r : RegionId) :
    { s.tick.region r with age := 0, expiryDue := false } = { s.region r with age := 0, expiryDue := false } := by
  rw [State.region_tick]
  split_ifs
  · exact Region.ticked_fields _
  · rfl

/-- The expiries due after a tick's advance (R28). -/
theorem State.expiryDue_tick (s : State) (r : RegionId) :
    s.tick.expiryDue r = true ↔ s.device = .run ∧ (s.region r).txn = .opened ∧
      ((s.region r).expiryDue = true ∨ (s.device = .run ∧ (s.region r).txn = .opened ∧ (s.region r).age < 65535) ∧
        (s.region r).live.ageLimit ≠ 0 ∧ (s.region r).age + 1 = (s.region r).live.ageLimit) := by
  have txn : (s.tick.region r).txn = (s.region r).txn := (congrArg Region.txn (s.region_tick_fields r) :)
  have device : s.tick.device = s.device := s.tick_keeps.part .device rfl
  rw [State.expiryDue_iff, device, txn]
  refine and_congr_right fun run => and_congr_right fun opened => ?_
  rw [State.region_tick, if_pos run, Region.ticked_expiryDue]
  simp only [run, opened, true_and]

/-- A tick that makes no expiry of an OPEN region in RUN due advances its count alone. -/
theorem State.region_tick_notDue {s : State} {r : RegionId} (h : s.tick.expiryDue r = false) :
    { s.tick.region r with age := 0 } = { s.region r with age := 0 } := by
  rw [State.expiryDue, s.tick_keeps.part .device rfl] at h
  rw [State.region_tick] at h ⊢
  split_ifs at h ⊢ with run
  · refine Region.ticked_notDue ?_
    by_cases opened : (s.region r).txn = .opened
    · have txn : (s.region r).ticked.txn = .opened := (congrArg Region.txn (Region.ticked_fields _) :).trans opened
      have after : (s.region r).ticked.expiryDue = false := by simpa [run, txn] using h
      have before : (s.region r).expiryDue = false := by
        rw [← Bool.not_eq_true] at after ⊢
        exact fun k => after ((Region.ticked_expiryDue _).mpr (.inl k))
      rw [after, before]
    · rw [Region.ticked, if_neg fun k => opened k.1]
  · rfl

/-- Settles O37: the advance of the counts, and then `takeExpiries_expired` on the contexts it leaves. -/
theorem tickAdvancesTheAgeCounts : Obligations.TickAdvancesTheAgeCounts := by
  intro s hi
  extract_lets counts expires aborts walks
  have he : exec .tick s = .next s.tick.takeExpiries.followOn := congrArg Host.Outcome.next (State.unlessReset_acts hi _)
  have x := s.tick.takeExpiries_expired
  have fields := s.region_tick_fields
  have kept := s.tick_keeps
  have live (r : RegionId) : (s.tick.region r).live = (s.region r).live := (congrArg Region.live (fields r) :)
  have records (r : RegionId) : (s.tick.region r).records = (s.region r).records := (congrArg Region.records (fields r) :)
  have number (r : RegionId) : (s.tick.region r).number = (s.region r).number := (congrArg Region.number (fields r) :)
  have age (r : RegionId) : (s.tick.region r).age = if counts r then (s.region r).age + 1 else (s.region r).age := by
    rw [State.region_tick]
    by_cases run : s.device = .run
    · rw [if_pos run, Region.ticked_age]
      simp only [counts, run, true_and]
    · rw [if_neg run, if_neg fun h => run h.1]
  have due (r : RegionId) : s.tick.expiryDue r = true ↔ expires r := s.expiryDue_tick r
  have busy (r : RegionId) : s.tick.hasBusyGroup r = s.hasBusyGroup r :=
    State.hasBusyGroup_congr (congrArg LogWriter.builder (kept.part .writer rfl)) (congrArg LogWriter.granted (kept.part .writer rfl)) r
  have abort (r : RegionId) : s.tick.ageAborts r = true ↔ aborts r := by rw [State.ageAborts_iff, due, live]
  have walk (r : RegionId) : s.tick.ageWalks r = true ↔ walks r := by
    rw [State.ageWalks_iff, abort, State.mustWalk, records, busy]
  have notDue {r : RegionId} (h : ¬expires r) : s.tick.expiryDue r = false := Bool.not_eq_true _ ▸ fun k => h ((due r).mp k)
  have notAbort {r : RegionId} (h : ¬aborts r) : s.tick.ageAborts r = false := Bool.not_eq_true _ ▸ fun k => h ((abort r).mp k)
  have notWalk {r : RegionId} : s.tick.ageWalks r = false ↔ ¬walks r := by rw [← walk, Bool.not_eq_true]
  have mem := mem_allRegions
  generalize s.tick.takeExpiries = t at he x
  refine ⟨t, he, ?_, fun r => ⟨fun h => ?_, fun h => ?_⟩, fun r h => ?_, fun r h => x.cleared r (mem r) ((due r).mpr h),
    fun r => ?_, fun r => ?_, fun r _ h => ?_, fun r ha hw => ?_, fun r h => x.walking r (mem r) ((walk r).mpr h),
    ⟨allRegions.filter s.tick.ageWalks, ?_, ?_, fun r => ?_⟩, fun h => ?_, fun h => ?_, ?_⟩
  · exact (x.keeps.part .timebase rfl).trans s.timebase_tick
  · rw [x.age, age, if_pos h]
  · rw [x.age, age, if_neg h]
  · have stands := congrArg (fun y : Region => { y with age := 0 }) (x.stands r (.inr (notDue h)))
    have tick := congrArg Region.bare (s.region_tick_notDue (notDue h))
    exact stands.trans tick
  · rw [x.expired, kept.flag _ rfl, due]
    simp [mem]
  · rw [x.rolledBack, kept.flag _ rfl, abort, notWalk]
    simp [mem]
  · have k := congrArg (fun y : Region => { y with age := 0 }) (x.notified r (mem r) (notAbort h))
    exact k.trans (congrArg Region.bare (fields r))
  · obtain ⟨idle, k⟩ := x.ended r (mem r) ((abort r).mpr ha) (notWalk.mpr hw)
    exact ⟨idle, by rw [k, number]⟩
  · rw [x.queue, kept.queue rfl]
  · have sorted : allRegions.Pairwise (· < ·) := by decide
    exact sorted.filter _
  · rw [List.mem_filter, walk]
    simp [mem]
  · rw [x.quiet fun r _ => notDue (h r)]
    exact kept
  · exact (kept.mono (by decide)).trans ((x.gentle fun r _ => notAbort (h r)).mono (by decide))
  · exact (kept.mono (by decide)).trans (x.keeps.mono (by decide))

end Sys2Proof.Machine
end

section
/-! SUPPORT. No step leaves an expiry due (R28), and with it the statement on same-line order and on what follows on an event
(R155). -/

namespace Sys2Proof.Machine

/-- No expiry is due. -/
def NoneExpires (s : State) : Prop := ∀ r, (s.region r).expiryDue = false

theorem Calm.noneExpires {s t : State} (k : Calm s t) (h : NoneExpires s) : NoneExpires t := fun r => by
  rw [← Bool.not_eq_true]
  intro ht
  exact Bool.false_ne_true ((h r).symm.trans (k r ht))

/-- A tick takes every expiry it makes due. -/
theorem NoneExpires.tick {s : State} (h : NoneExpires s) : NoneExpires s.tick.takeExpiries := by
  have x := s.tick.takeExpiries_expired
  generalize s.tick.takeExpiries = t at x
  intro r
  cases due : s.tick.expiryDue r with
  | true => exact x.cleared r (mem_allRegions r) due
  | false =>
    have stands : (t.region r).expiryDue = (s.tick.region r).expiryDue :=
      (congrArg Region.expiryDue (x.stands r (.inr due)) :)
    have advance : (s.tick.region r).expiryDue = (s.region r).expiryDue :=
      (congrArg Region.expiryDue (State.region_tick_notDue due) :)
    rw [stands, advance, h r]

theorem Calm.issueNext (s : State) : Calm s s.issueNext := by
  obtain k | ⟨g, cls, q, -, -, k⟩ := s.issueNext_cases <;> rw [k]
  · exact .refl s
  · obtain ⟨_, _, e, -⟩ := s.issueRequest_eq g cls q
    rw [e]
    exact .of_eq rfl

theorem Calm.beginFormatAnchors (s : State) : Calm s s.beginFormatAnchors := by
  unfold State.beginFormatAnchors
  exact .ite (fun _ => (Calm.startAnchor _ _).after (.updLog s _)) fun _ => .refl s

theorem Calm.mapTags (s : State) (f : Tag → Tag) : Calm s (s.mapTags f) := by
  rw [State.mapTags_eq]
  exact .of_eq rfl

theorem Calm.respond (s : State) (g : DownTag) (ok : Bool) (data : Line) : Calm s (s.respond g ok data) := by
  unfold State.respond
  split
  · exact .refl s
  · exact (Calm.followOn _).after (.of_eq rfl)
  · exact (Calm.followOn _).after ((Calm.deliver _ _ _ _ _).after (.of_eq rfl))

theorem Calm.timeout (s : State) (g : DownTag) : Calm s (s.timeout g) := by
  unfold State.timeout
  split
  · exact (Calm.followOn _).after ((Calm.expire _ _ _ _).after (.of_eq rfl))
  · exact .refl s

/-- A link command whose owner makes no expiry due. -/
theorem Calm.command {s : State} {c : Instr} {len : Nat} {owner : State → Reply} (h : Calm s (owner s).state) :
    Calm s (s.takeCommand c len owner) :=
  State.takeCommand_keeps (P := Calm s) (fun _ _ k => k.same rfl) (.refl s) h

theorem Calm.gated {s : State} {owner : State → Reply} (h : Calm s (owner s).state) : Calm s (gated owner s).state :=
  gated_keeps (P := Calm s) (.refl s) fun _ => h

theorem Calm.onRegion {s : State} {b : Byte} {owner : RegionId → State → Reply} (h : ∀ r, Calm s (owner r s).state) :
    Calm s (onRegion b owner s).state := onRegion_keeps (P := Calm s) (.refl s) h

/-- No command but the tick and the end of reset makes an expiry due. -/
theorem Calm.exec {c : Instr} {s t : State} (ht : c ≠ .tick) (hr : ∀ m b, c ≠ .resetRelease m b) (he : exec c s = .next t) :
    Calm s t := by
  have hs := Calm.refl s
  have follow {u : State} (k : Calm s u) : Calm s u.followOn := (Calm.followOn u).after k
  cases c
  case ident | readStatus | readLog | readRegion | readParam | readPending | readFault | unknownCommand | setParam |
      setPriority | setThreshold | popFault | claim | frameDiscard | frameEnd | firstIssueDelayExpiry =>
    exact .settings (exec_settingsOnly rfl he)
  case stage | applyNow | applyAtClose | applyAtBegin | applyCancel | beginTxn =>
    exact .contexts (exec_contextsOnly rfl he)
  case resetRelease m b => exact absurd rfl (hr m b)
  case tick => exact absurd rfl ht
  all_goals cases he
  case commit =>
    refine .command (.gated (.onRegion fun r => ?_))
    unfold commitReply
    split_ifs
    · exact follow (.takeCommit s r)
    · exact hs
  case abort =>
    refine .command (.gated (.onRegion fun r => ?_))
    unfold abortReply
    split_ifs
    · exact follow (.abortTxn s r)
    · exact hs
  case retry =>
    refine .command (.gated (.onRegion fun r => ?_))
    unfold retryReply
    split_ifs
    · exact hs
    · exact follow (.queueWalk s r)
    · exact hs
  case format base units =>
    refine .command (.gated ?_)
    obtain k | ⟨-, -, -, k⟩ := formatReply_cases base.toNat units.toNat s
    · rw [k]
      exact hs
    · rw [k, done_state]
      exact follow (.takeFormat s _)
  case dportClear => exact .command (.gated (follow (.mapTags s _)))
  case resetAssert =>
    unfold State.assertReset
    rw [State.abandonWork_eq]
    exact .of_eq rfl
  case powerFailWarning =>
    refine State.unlessReset_keeps hs fun _ => ?_
    exact .ite (fun _ => hs) fun _ => follow (.quiesce s)
  case upstreamRequest q =>
    refine .ite (fun _ => ?_) fun _ => hs
    unfold State.takeRequest
    refine .ite (fun _ => .pushFault s _) fun _ => .ite (fun _ => ?_) fun _ => .of_eq rfl
    exact (Calm.followOn _).after (.of_eq rfl)
  case entryStart tag =>
    refine State.unlessReset_keeps hs fun _ => ?_
    split
    · exact .ite (fun _ => follow (.startEntry s _)) fun _ => hs
    · exact hs
  case downstreamIssue => exact State.unlessReset_keeps hs fun _ => .issueNext s
  case downstreamResponse tag ok data => exact State.unlessReset_keeps hs fun _ => .respond s tag ok data
  case responseTimeout tag => exact State.unlessReset_keeps hs fun _ => .timeout s tag
  case ageExpiry r => exact State.unlessReset_keeps hs fun _ => .ite (fun _ => follow (.expireAge s r)) fun _ => hs
  case chooseNextWork => exact State.unlessReset_keeps hs fun _ => .ite (fun _ => follow (.chooseWork s)) fun _ => hs
  case commitDrainComplete r => exact State.unlessReset_keeps hs fun _ => .ite (fun _ => follow (.commitPhase s r)) fun _ => hs
  case walkStart => exact State.unlessReset_keeps hs fun _ => .nextWalk s
  case walkDrainComplete => exact State.unlessReset_keeps hs fun _ => .passDrain s
  case formatAnchorWrites => exact State.unlessReset_keeps hs fun _ => .beginFormatAnchors s
  case recoveryEnd => exact State.unlessReset_keeps hs fun _ => .passRecovery s
  case settlingEnd => exact State.unlessReset_keeps hs fun _ => .passSettling s

theorem NoneExpires.exec {c : Instr} {s t : State} (h : NoneExpires s) (he : exec c s = .next t) : NoneExpires t := by
  by_cases ht : c = .tick
  · subst ht
    cases he
    exact State.unlessReset_keeps h fun _ => (Calm.followOn _).noneExpires h.tick
  · by_cases hr : ∃ m b, c = .resetRelease m b
    · obtain ⟨m, b, rfl⟩ := hr
      cases he
      intro r
      exact congrArg Region.expiryDue (State.region_afterReset m b s.pending r)
    · exact (Calm.exec ht (fun m b k => hr ⟨m, b, k⟩) he).noneExpires h

/-- Settles O58: same-line order with the distinct tags that carry it, `followOn`'s own facts for what is due, and the tick's
expiries. -/
theorem everyStepKeepsSameLineOrder : Obligations.EveryStepKeepsSameLineOrder := by
  refine ⟨fun s t hr hl hs => ?_, fun s t hr h hs => ?_, fun s t h hs => ?_⟩
  · exact (LineOrdered.stable.step ⟨hr.tags, hl⟩ hs).2
  · refine (step_keeps (P := fun s => InRange s ∧ NothingDue s) (fun s q h => ?_) (fun c s t h he => ?_) ⟨hr, h⟩ hs).2
    · exact ⟨h.1.pending q, h.2.settings ⟨_, _, _, _, _, _, rfl⟩⟩
    · exact ⟨h.1.exec he, h.2.exec h.1 he⟩
  · exact step_keeps (P := NoneExpires) (fun _ _ h => h) (fun c s t h he => h.exec he) h hs

end Sys2Proof.Machine
end

section
/-! SUPPORT. FORMAT: the log it makes and what it does to each region (R56). -/

namespace Sys2Proof.Machine

/-! ## The regions (R56, step 4) -/

/-- The parts of the state that FORMAT's pass over the regions can change. -/
def formatParts : List Part := [.regions, .drains, .directory, .faults, .notices, .table, .responses]

/-- Region `r` is in IDLE with transaction number 1 in `t`, its staged descriptor as in `s`. -/
def Renumbered (s t : State) (r : RegionId) : Prop :=
  (t.region r).txn = .idle ∧ (t.region r).number = 1 ∧ (t.region r).staged = (s.region r).staged

theorem State.formatRegion_effect {s : State} {r : RegionId} (h : (s.region r).txn = .idle ∨ (s.region r).txn = .faulted) :
    Renumbered s (s.formatRegion r) r ∧ OtherRegions r s (s.formatRegion r) ∧ Keeps formatParts s (s.formatRegion r) := by
  unfold State.formatRegion
  extract_lets a
  have ra : a.region r = { s.region r with number := 1 } := State.region_updRegion_self s r _
  have oa : OtherRegions r s a := .updRegion s r _
  have ka : Keeps formatParts s a := (Keeps.updRegion s r _ rfl).mono (by decide)
  by_cases hf : (a.region r).txn = .faulted
  · rw [if_pos hf]
    have back := a.returnToIdle_effect r fun _ => 1
    generalize a.returnToIdle r (fun _ => 1) = t at back ⊢
    obtain ⟨live, apply, k⟩ := back.region
    rw [ra] at k
    exact ⟨⟨(congrArg Region.txn k :), (congrArg Region.number k :), (congrArg Region.staged k :)⟩, oa.trans back.others,
      ka.trans back.keeps⟩
  · rw [if_neg hf]
    refine ⟨⟨?_, by rw [ra], by rw [ra]⟩, oa, ka⟩
    rw [ra] at hf ⊢
    exact h.resolve_right hf

/-- What FORMAT's pass over the regions `l` has done. -/
structure RegionsFormatted (l : List RegionId) (s t : State) : Prop where
  done : ∀ r ∈ l, Renumbered s t r
  stands : ∀ r, r ∉ l → (t.region r).bare = (s.region r).bare
  keeps : Keeps formatParts s t

theorem State.formatRegions_effect {l : List RegionId} (hl : l.Nodup) {s : State}
    (h : ∀ r ∈ l, (s.region r).txn = .idle ∨ (s.region r).txn = .faulted) :
    RegionsFormatted l s (l.foldl State.formatRegion s) := by
  induction l generalizing s with
  | nil => exact ⟨fun _ h => absurd h List.not_mem_nil, fun _ _ => rfl, .refl _ s⟩
  | cons r l ih =>
    obtain ⟨hr, hl⟩ := List.nodup_cons.mp hl
    obtain ⟨done, others, keeps⟩ := State.formatRegion_effect (h r List.mem_cons_self)
    have bare (q : RegionId) (hq : q ∈ l) : ((s.formatRegion r).region q).bare = (s.region q).bare :=
      others q fun k => hr (k ▸ hq)
    have txn (q : RegionId) (hq : q ∈ l) : ((s.formatRegion r).region q).txn = (s.region q).txn :=
      (congrArg Region.txn (bare q hq) :)
    have rest := ih hl (s := s.formatRegion r) fun q hq => by rw [txn q hq]; exact h q (List.mem_cons_of_mem r hq)
    rw [List.foldl_cons]
    generalize l.foldl State.formatRegion (s.formatRegion r) = t at rest ⊢
    refine ⟨fun q hq => ?_, fun q hq => ?_, keeps.trans rest.keeps⟩
    · obtain rfl | hq := List.mem_cons.mp hq
      · have k := rest.stands q hr
        obtain ⟨idle, number, staged⟩ := done
        exact ⟨(congrArg Region.txn k).trans idle, (congrArg Region.number k).trans number,
          (congrArg Region.staged k).trans staged⟩
      · obtain ⟨idle, number, staged⟩ := rest.done q hq
        exact ⟨idle, number, staged.trans (congrArg Region.staged (bare q hq) :)⟩
    · have hq' : q ≠ r ∧ q ∉ l := by simpa using hq
      exact (rest.stands q hq'.2).trans (others q hq'.1)

/-! ## The log (R56, steps 1 to 3) -/

/-- An update of the log, FORMAT's drain set with it. -/
theorem Keeps.updLogAndDrain (s : State) (f : LogState → LogState) : Keeps [.log, .drains] s (s.updLog f) :=
  ⟨fun p hp => by cases p <;> simp_all [Part.same], rfl, rfl, rfl⟩

theorem Keeps.formatStart (s : State) (g : Geometry) : Keeps [.device, .drains, .log] s (s.formatStart g).setLevel :=
  (((Keeps.setDevice s _).mono (by decide)).trans ((Keeps.updLogAndDrain _ _).mono (by decide))).trans
    ((Keeps.updLog _ rfl).mono (by decide))

/-- The log but for FORMAT's drain set. -/
def LogState.bare (l : LogState) : LogState := { l with formatDrain := [] }

theorem Keeps.logBare {c : List Part} {s t : State} (h : Keeps c s t) (hc : c.contains .log = false) :
    t.log.bare = s.log.bare := h.part .log hc

/-- The free space of an empty ring of whole 4 KiB units (R46). -/
theorem LogState.free_empty {l : LogState} {base units : Nat} (h : l.geometry = some ⟨base, 4096 * units⟩)
    (head : l.head = 0) (tail : l.durableTail = 0) : l.free = 128 * units := by
  have ring : l.ring = 128 * units := by
    rw [LogState.ring, h]
    show 4096 * units / 32 = 128 * units
    omega
  have distance : ringDistance (128 * units) 0 0 = 0 := by simp [ringDistance]
  rw [LogState.free, ring, head, tail, distance]
  split_ifs <;> omega

theorem LogState.nextGeneration_eq (l : LogState) :
    l.nextGeneration = if l.slot = none ∨ l.generation = 0xFFFFFFFF then 1 else l.generation + 1 := by
  unfold LogState.nextGeneration
  cases l.slot <;> simp

/-- A gated command that its owner refuses or carries out without data. -/
theorem takes_gated {c : Instr} {s t : State} {owner : State → Reply} {result : ResultCode} (hl : LinkReady s)
    (hs : Serving s) (he : exec c s = .next (s.takeCommand c 0 (gated owner))) (ho : owner s = ⟨result, [], t⟩) :
    Takes c s result [] t := by
  have k := takes_of_reply hl he
  rw [gated_of_serving hs, ho] at k
  simpa using k

/-- FORMAT's answer once its checks have passed (R55). -/
theorem formatReply_taken {base units : Nat} {s : State} (placed : base % 4096 = 0 ∧ 2 ≤ units ∧ units ≤ 512)
    (idle : ∀ r, (s.region r).txn = .idle ∨ (s.region r).txn = .faulted) (anchor : s.log.anchor = none)
    (apart : s.areaMeets base (4096 * units) = false) :
    formatReply base units s = done (s.takeFormat ⟨base, 4096 * units⟩).followOn := by
  have quiet : s.someTxnRuns = false := by
    refine List.any_eq_false.mpr fun r _ => ?_
    obtain h | h := idle r <;> simp [h]
  unfold formatReply
  simp only [not_true_eq_false, placed, and_self, if_false, quiet, Bool.false_eq_true, and_false, anchor,
    Option.isSome_none, apart]

/-- Settles O26: the log is that of `formatStart`, and the pass over the regions leaves it. -/
theorem formatMakesANewLog : Obligations.FormatMakesANewLog := by
  intro base units s hl hs anchor aligned low high apart idle
  have takes : Takes (.format base units) s .ok [] (s.takeFormat ⟨base.toNat, 4096 * units.toNat⟩).followOn := by
    have reply := formatReply_taken ⟨aligned, low, high⟩ idle anchor apart
    exact takes_gated hl hs rfl reply
  have start := Keeps.formatStart s ⟨base.toNat, 4096 * units.toNat⟩
  have pass : RegionsFormatted allRegions (s.formatStart ⟨base.toNat, 4096 * units.toNat⟩).setLevel
      (s.takeFormat ⟨base.toNat, 4096 * units.toNat⟩) := State.formatRegions_effect allRegions_nodup fun r _ => idle r
  generalize s.takeFormat ⟨base.toNat, 4096 * units.toNat⟩ = t at takes pass
  have free : ((s.formatStart ⟨base.toNat, 4096 * units.toNat⟩).log).free = 128 * units.toNat :=
    LogState.free_empty rfl rfl rfl
  have log := pass.keeps.logBare rfl
  have below : t.log.below = decide ((s.formatStart ⟨base.toNat, 4096 * units.toNat⟩).log.free < s.params.spaceWatermark) :=
    (congrArg LogState.below log :)
  refine ⟨t, takes, pass.keeps.part .device rfl, (congrArg LogState.geometry log :), ?_, (congrArg LogState.nextSeq log :),
    (congrArg LogState.head log :), (congrArg LogState.volatileTail log :), (congrArg LogState.tailSeq log :),
    (congrArg LogState.durableTail log :), (congrArg LogState.unresolved log :), fun r => ?_,
    (congrArg LogState.anchorWanted log :), ?_, ?_, (congrArg LogState.slot log :), (congrArg LogState.anchorSeq log :), ?_,
    fun r => ?_, (start.mono (by decide)).trans (pass.keeps.mono (by decide))⟩
  · rw [← LogState.nextGeneration_eq]
    exact (congrArg LogState.generation log :)
  · have firstSeqs : t.log.firstSeqs = Vector.replicate 8 none := (congrArg LogState.firstSeqs log :)
    simp [firstSeqs, Vector.get_eq_getElem]
  · have k : t.log.free = (s.formatStart ⟨base.toNat, 4096 * units.toNat⟩).log.free := (congrArg LogState.free log :)
    rw [k, free]
  · rw [below, free, decide_eq_true_eq]
  · have k : t.log.anchor = s.log.anchor := (congrArg LogState.anchor log :)
    rw [k, anchor]
  · exact pass.done r (mem_allRegions r)

end Sys2Proof.Machine
end

section
/-! SUPPORT. The start of an entry: the class R3 gives its address, what Table 8-5 gives the class, and the start as the first
of the pass over the table (R155, R156). -/

namespace Sys2Proof.Machine

/-! ## Classification (R3) -/

theorem State.logAddress_iff (s : State) (addr : Nat) :
    LogAddress s addr ↔ (s.inAnchors addr || s.inLogArea addr) = true := by
  unfold LogAddress State.inAnchors State.inLogArea
  cases s.log.geometry <;> simp

/-- The first of an ascending list that satisfies a test is the least that does. -/
theorem find?_eq_some_of_least {n : Nat} {p : Fin n → Bool} {r : Fin n} {l : List (Fin n)} (sorted : l.Pairwise (· < ·))
    (hr : r ∈ l) (hp : p r = true) (least : ∀ q, q < r → ¬p q = true) : l.find? p = some r := by
  induction l with
  | nil => exact absurd hr List.not_mem_nil
  | cons a l ih =>
    obtain ⟨ha, sorted⟩ := List.pairwise_cons.mp sorted
    obtain rfl | hr := List.mem_cons.mp hr
    · exact List.find?_cons_of_pos hp
    · rw [List.find?_cons_of_neg (least a (ha r hr))]
      exact ih sorted hr

theorem allRegions_sorted : allRegions.Pairwise (· < ·) := by decide

theorem State.classify_log {s : State} {addr : Nat} (h : LogAddress s addr) : s.classify addr = .logArea :=
  if_pos ((s.logAddress_iff addr).mp h)

theorem State.classify_other {s : State} {addr : Nat} (h : ¬LogAddress s addr) :
    s.classify addr = (s.regionAt addr).elim .unmapped .region := by
  unfold State.classify
  rw [if_neg fun k => h ((s.logAddress_iff addr).mpr k)]
  cases s.regionAt addr <;> rfl

theorem State.classify_region {s : State} {addr : Nat} {r : RegionId} (h : RegionAddress s addr r) :
    s.classify addr = .region r := by
  obtain ⟨notLog, enabled, holds, least⟩ := h
  have first : s.regionAt addr = some r :=
    find?_eq_some_of_least allRegions_sorted (mem_allRegions r) (by simp [enabled, holds]) fun q hq k => by
      rw [Bool.and_eq_true] at k
      exact least q hq k
  rw [State.classify_other notLog, first]
  rfl

theorem State.classify_unmapped {s : State} {addr : Nat} (notLog : ¬LogAddress s addr)
    (h : ∀ r, ¬RegionAddress s addr r) : s.classify addr = .unmapped := by
  have none : s.regionAt addr = none := by
    refine List.find?_eq_none.mpr fun r _ hr => ?_
    obtain ⟨q, hq, least⟩ := wellFounded_lt.has_min
      {r : RegionId | ((s.region r).live.enable && (s.region r).live.holds addr) = true} ⟨r, hr⟩
    obtain ⟨enabled, holds⟩ := (Bool.and_eq_true _ _).mp hq
    refine h q ⟨notLog, enabled, holds, fun q' hlt k => least q' ?_ hlt⟩
    exact (Bool.and_eq_true _ _).mpr k
  rw [State.classify_other notLog, none]
  rfl

theorem State.directoryHit_iff (s : State) (r : RegionId) (addr : Nat) :
    s.directoryHit r (lineOf addr) = true ↔ Captured s r addr := by
  simp [State.directoryHit, Captured, and_assoc]

/-! ## The start as the first of the pass (R155) -/

/-- Behind entries of which none may start, the pass over the table leaves them. -/
theorem State.foldl_startDue_older {s : State} (h : InRange s) {pre rest : List Entry} (ht : s.table = pre ++ rest)
    (hn : NoneStarts s pre) : (pre.map Entry.tag).foldl State.startDue s = s := by
  have go : ∀ todo done : List Entry, pre = done ++ todo → (todo.map Entry.tag).foldl State.startDue s = s := by
    intro todo
    induction todo with
    | nil => exact fun _ _ => rfl
    | cons x todo ih =>
      intro done hd
      have stands : Stands s done x (todo ++ rest) := by rw [Stands, ht, hd, List.append_assoc]; rfl
      have still : s.startDue x.tag = s := by
        obtain ⟨⟨waits, clear⟩, -⟩ | ⟨-, k⟩ := State.startDue_of_stands h stands
        · exact absurd clear (hn done x todo hd waits)
        · exact k
      rw [List.map_cons, List.foldl_cons, still]
      exact ih (done ++ [x]) (by rw [hd, List.append_assoc]; rfl)
  exact go pre [] rfl

/-- The pass over a table whose first entry to start has started is the pass over the table it was started from. -/
theorem State.startEntries_startEntry {s : State} (h : InRange s) {pre post : List Entry} {e : Entry}
    (hs : Stands s pre e post) (hw : e.state = .waitOrder) (hc : LineClear s pre e) (hn : NoneStarts s pre) :
    s.startEntries = (s.startEntry e).startEntries := by
  have starts : s.startDue e.tag = s.startEntry e := by
    obtain ⟨-, k⟩ | ⟨k, -⟩ := State.startDue_of_stands h hs
    · exact k
    · exact absurd hc (k hw)
  have left : s.startEntries = (post.map Entry.tag).foldl State.startDue (s.startEntry e) := by
    unfold State.startEntries
    rw [hs, List.map_append, List.foldl_append, State.foldl_startDue_older h hs hn, List.map_cons, List.foldl_cons, starts]
  have range : InRange (s.startEntry e) := starts ▸ (Kept.startDue s e.tag).inRange h
  have older : NoneStarts (s.startEntry e) pre := hn.congr fun g a hg => by rwa [State.tag_startEntry]
  rw [left]
  obtain ht | ⟨e', he', -, ht⟩ := State.startEntry_table h hs
  · unfold State.startEntries
    rw [ht, List.map_append, List.foldl_append, State.foldl_startDue_older range ht older]
  · have still : (s.startEntry e).startDue e'.tag = s.startEntry e := by
      obtain ⟨⟨waits, -⟩, -⟩ | ⟨-, k⟩ := State.startDue_of_stands range ht
      · exact absurd waits he'
      · exact k
    unfold State.startEntries
    rw [ht, List.map_append, List.foldl_append, State.foldl_startDue_older range ht older, List.map_cons, List.foldl_cons,
      still]

/-- What the command and the pass over the table do with an entry that may start. -/
theorem State.startEntry_starts {s : State} (h : InRange s) (hi : s.inReset = false) {pre post : List Entry} {e : Entry}
    (hs : Stands s pre e post) (hw : e.state = .waitOrder) (hc : LineClear s pre e) :
    exec (.entryStart e.tag) s = .next (s.startEntry e).followOn ∧
      (NoneStarts s pre → s.followOn = (s.startEntry e).followOn) := by
  constructor
  · have may : s.mayStart e = true := (State.mayStart_iff h hs).mpr ⟨hw, hc⟩
    refine congrArg Host.Outcome.next ((State.unlessReset_acts hi _).trans ?_)
    simp only [State.entry_of_stands h hs, may, if_true]
  · intro hn
    unfold State.followOn
    rw [State.startEntries_startEntry h hs hw hc hn]

/-! ## What the class gives (Table 8-5) -/

theorem State.startEntry_go {s : State} (h : InRange s) {pre post : List Entry} {e : Entry} (hs : Stands s pre e post)
    {c : RequestClass} (hc : s.classify e.addr = c) {st : EntryState} {hd : Option Handling}
    (hp : s.placing e c = .go st hd) :
    s.startEntry e = { s with table := pre ++ { e with cls := some c, state := st, handling := hd } :: post } := by
  let placed (x : Entry) : Entry := { x with cls := some c, state := st, handling := hd }
  have start : s.startEntry e = { s with table := (s.updEntry e.tag placed).table } := by
    unfold State.startEntry
    dsimp only
    rw [hc, hp]
    rfl
  rw [start, State.updEntry_table_of_stands h hs]

/-- What an ERR answer on a start leaves. -/
theorem State.startEntry_refused {s : State} (h : InRange s) {pre post : List Entry} {e : Entry} (hs : Stands s pre e post)
    {c : RequestClass} (hc : s.classify e.addr = c) {reason : Reason} (hp : s.placing e c = .refuse reason) :
    (s.startEntry e).table = pre ++ post ∧ (s.startEntry e).responses = s.responses ++ [e.errResponse reason] ∧
      Keeps [.table, .drains, .responses] s (s.startEntry e) := by
  have k : s.startEntry e = s.answerError e reason := by
    unfold State.startEntry
    dsimp only
    rw [hc, hp]
  rw [k, State.answerError]
  refine ⟨State.table_answer_of_stands h hs _ _, ?_, .answer s e _ _⟩
  rw [State.responses_answer, errorData_eq]

/-- In LOG_FAULT a write of a region is refused, whatever the region's state (R12, R110). -/
theorem State.placing_logFault {s : State} {e : Entry} (hd : s.device = .logFault) (hw : e.op = .write) (r : RegionId) :
    s.placing e (.region r) = .refuse .logFault := if_pos ⟨hd, hw⟩

theorem State.placing_region {s : State} {e : Entry} (h : s.device ≠ .logFault ∨ e.op = .read) (r : RegionId) :
    s.placing e (.region r) = s.placeByRegion r e := by
  refine if_neg ?_
  rintro ⟨hd, hw⟩
  obtain h | h := h
  · exact h hd
  · rw [hw] at h
    cases h

theorem State.placeByRegion_read {s : State} {e : Entry} {r : RegionId} (hr : e.op = .read)
    (h : (s.region r).txn = .idle ∨ (s.region r).txn = .opened ∨ (s.region r).txn = .committing) :
    s.placeByRegion r e = .go .ready (some .readForward) := by
  unfold State.placeByRegion
  obtain h | h | h := h <;> rw [h, hr]

theorem State.lookup_hit {s : State} {r : RegionId} {addr : Nat} (h : Captured s r addr) (miss : Handling) :
    s.lookup r addr miss = .go .ready (some .inPlace) := if_pos ((s.directoryHit_iff r addr).mpr h)

theorem State.lookup_miss {s : State} {r : RegionId} {addr : Nat} (h : ¬Captured s r addr) (miss : Handling) :
    s.lookup r addr miss = .go .waitLog (some miss) := if_neg fun k => h ((s.directoryHit_iff r addr).mp k)

theorem State.placeByRegion_opened {s : State} {e : Entry} {r : RegionId} (hw : e.op = .write)
    (h : (s.region r).txn = .opened) : s.placeByRegion r e = s.lookup r e.addr .firstWrite := by
  unfold State.placeByRegion
  rw [h, hw]

theorem State.placeByRegion_committing {s : State} {e : Entry} {r : RegionId} (hw : e.op = .write)
    (h : (s.region r).txn = .committing) : s.placeByRegion r e =
      if e.tag ∈ (s.region r).drain then s.lookup r e.addr .drainWrite else .go .waitRegion none := by
  unfold State.placeByRegion
  rw [h, hw]

theorem State.placeByRegion_rollingBack {s : State} {e : Entry} {r : RegionId} (h : (s.region r).txn = .rollingBack) :
    s.placeByRegion r e = .go .waitRegion none := by
  unfold State.placeByRegion
  rw [h]

theorem State.placeByRegion_faulted {s : State} {e : Entry} {r : RegionId} (h : (s.region r).txn = .faulted) :
    s.placeByRegion r e = .refuse .regionFault := by
  unfold State.placeByRegion
  rw [h]

theorem State.placeByRegion_idle {s : State} {e : Entry} {r : RegionId} (hw : e.op = .write)
    (h : (s.region r).txn = .idle) : s.placeByRegion r e =
      if (s.region r).live.outside = .pass then .go .ready (some .passThrough) else .refuse .refused := by
  unfold State.placeByRegion
  rw [h, hw]
  cases (s.region r).live.outside <;> rfl

/-- Settles O33. -/
theorem entryStartsByItsClass : Obligations.EntryStartsByItsClass := by
  intro pre post e s h hi hs hw hc
  extract_lets starts goes refused
  have starts_startEntry : starts (s.startEntry e) := State.startEntry_starts h hi hs hw hc
  have goes_of {c : RequestClass} {st : EntryState} {hd : Option Handling} (k : s.classify e.addr = c)
      (hp : s.placing e c = .go st hd) : goes c st hd := by
    show starts _
    rw [← State.startEntry_go h hs k hp]
    exact starts_startEntry
  have refused_of {c : RequestClass} {reason : Reason} (k : s.classify e.addr = c)
      (hp : s.placing e c = .refuse reason) : refused reason :=
    ⟨_, starts_startEntry, State.startEntry_refused h hs k hp⟩
  refine ⟨fun hl => refused_of (State.classify_log hl) rfl, fun hl hn => goes_of (State.classify_unmapped hl hn) rfl,
    fun r ha => ?_⟩
  have cls := State.classify_region ha
  have go {st : EntryState} {hd : Option Handling} (k : s.device ≠ .logFault ∨ e.op = .read)
      (hp : s.placeByRegion r e = .go st hd) : goes (.region r) st hd := goes_of cls ((State.placing_region k r).trans hp)
  have refuse {reason : Reason} (k : s.device ≠ .logFault ∨ e.op = .read)
      (hp : s.placeByRegion r e = .refuse reason) : refused reason := refused_of cls ((State.placing_region k r).trans hp)
  refine ⟨fun hd ho => refused_of cls (State.placing_logFault hd ho r),
    fun ho ht => go (.inr ho) (State.placeByRegion_read ho ht),
    fun hd ho ht => ⟨fun hp => go (.inl hd) ?_, fun hp => refuse (.inl hd) ?_⟩,
    fun hd ho ht => ⟨fun k => go (.inl hd) ?_, fun k => go (.inl hd) ?_⟩,
    fun hd ho ht => ⟨fun hm k => go (.inl hd) ?_, fun hm k => go (.inl hd) ?_, fun hm => go (.inl hd) ?_⟩,
    fun k => ⟨fun ht => go k (State.placeByRegion_rollingBack ht), fun ht => refuse k (State.placeByRegion_faulted ht)⟩⟩
  · rw [State.placeByRegion_idle ho ht, if_pos hp]
  · rw [State.placeByRegion_idle ho ht, hp]
    rfl
  · rw [State.placeByRegion_opened ho ht, State.lookup_hit k]
  · rw [State.placeByRegion_opened ho ht, State.lookup_miss k]
  · rw [State.placeByRegion_committing ho ht, if_pos hm, State.lookup_hit k]
  · rw [State.placeByRegion_committing ho ht, if_pos hm, State.lookup_miss k]
  · rw [State.placeByRegion_committing ho ht, if_neg hm]

end Sys2Proof.Machine
end

section
/-! SUPPORT. The resolution of a transaction: the tail goes to the ring-earliest first record left, and a move of it sends a
space event and tests the stride condition (R43, R44, R50, R53). -/

namespace Sys2Proof.Machine

/-! ## The ring-earliest first record (R44) -/

theorem earlier_mem (n tail : Nat) (a b : Nat × Word32) : earlier n tail a b = a ∨ earlier n tail a b = b := by
  unfold earlier
  split_ifs
  · exact .inr rfl
  · exact .inl rfl

theorem earlier_le (n tail : Nat) (a b : Nat × Word32) :
    ringDistance n tail (earlier n tail a b).1 ≤ ringDistance n tail a.1 ∧
      ringDistance n tail (earlier n tail a b).1 ≤ ringDistance n tail b.1 := by
  unfold earlier
  split_ifs with h
  · exact ⟨h.le, le_rfl⟩
  · exact ⟨le_rfl, not_lt.mp h⟩

/-- The choice among several first records is one of them, and none is ring-earlier. -/
theorem foldl_earlier (n tail : Nat) (rest : List (Nat × Word32)) : ∀ x,
    rest.foldl (earlier n tail) x ∈ x :: rest ∧
      ∀ y ∈ x :: rest, ringDistance n tail (rest.foldl (earlier n tail) x).1 ≤ ringDistance n tail y.1 := by
  induction rest with
  | nil => exact fun x => ⟨List.mem_cons_self, fun y hy => by rw [List.mem_singleton.mp hy]; rfl⟩
  | cons a rest ih =>
    intro x
    obtain ⟨mem, le⟩ := ih (earlier n tail x a)
    obtain ⟨lex, lea⟩ := earlier_le n tail x a
    have first := le _ List.mem_cons_self
    rw [List.foldl_cons]
    refine ⟨?_, fun y hy => ?_⟩
    · obtain h | h := List.mem_cons.mp mem
      · rw [h]
        obtain k | k := earlier_mem n tail x a <;> simp [k]
      · exact List.mem_cons_of_mem x (List.mem_cons_of_mem a h)
    · obtain rfl | hy := List.mem_cons.mp hy
      · exact first.trans lex
      · obtain rfl | hy := List.mem_cons.mp hy
        · exact first.trans lea
        · exact le y (List.mem_cons_of_mem _ hy)

theorem State.mem_firstRecords (s : State) (x : Nat × Word32) :
    x ∈ s.firstRecords ↔ ∃ q, FirstRecord s q x.1 x.2 := by
  unfold State.firstRecords FirstRecord
  simp only [List.mem_filterMap]
  constructor
  · rintro ⟨q, -, h⟩
    refine ⟨q, ?_⟩
    split at h
    · next seq i hs hi =>
      cases h
      exact ⟨hs, hi⟩
    · cases h
  · rintro ⟨q, hs, hi⟩
    exact ⟨q, mem_allRegions q, by rw [hs, hi]⟩

/-- Without an unresolved first record the tail goes to the head (R44). -/
theorem State.earliestTail_none {s : State} (h : ∀ q i seq, ¬FirstRecord s q i seq) :
    s.earliestTail = (s.log.head, s.log.nextSeq) := by
  have empty : s.firstRecords = [] := by
    refine List.eq_nil_iff_forall_not_mem.mpr fun x hx => ?_
    obtain ⟨q, hq⟩ := (s.mem_firstRecords x).mp hx
    exact h q x.1 x.2 hq
  unfold State.earliestTail
  rw [empty]

theorem State.earliestTail_some {s : State} {q : RegionId} {i : Nat} {seq : Word32} (h : FirstRecord s q i seq) :
    (∃ q', FirstRecord s q' s.earliestTail.1 s.earliestTail.2) ∧
      ringDistance s.log.ring s.log.durableTail s.earliestTail.1 ≤ ringDistance s.log.ring s.log.durableTail i := by
  have mem : (i, seq) ∈ s.firstRecords := (s.mem_firstRecords (i, seq)).mpr ⟨q, h⟩
  cases hr : s.firstRecords with
  | nil => rw [hr] at mem; cases mem
  | cons x rest =>
    have e : s.earliestTail = rest.foldl (earlier s.log.ring s.log.durableTail) x := by
      unfold State.earliestTail
      rw [hr]
    obtain ⟨chosen, least⟩ := foldl_earlier s.log.ring s.log.durableTail rest x
    rw [← e, ← hr] at chosen least
    exact ⟨(s.mem_firstRecords _).mp chosen, least _ mem⟩

/-! ## The tail after a resolution -/

/-- The transaction is taken from the log's count and first records, and the tail recomputed (R43, R44). -/
def State.untracked (s : State) (r : RegionId) : State :=
  s.updLog fun l => { l with unresolved := l.unresolved - 1, firstSeqs := l.firstSeqs.set r.val none }

theorem State.resolve_eq (s : State) (r : RegionId) :
    s.resolve r =
      if ((s.untracked r).recomputeTail).log.volatileTail = s.log.volatileTail then (s.untracked r).recomputeTail
      else ((s.untracked r).recomputeTail).spaceEvent.strideTrigger := rfl

theorem State.firstSeqs_untracked (s : State) (r q : RegionId) :
    (s.untracked r).log.firstSeqs.get q = if q = r then none else s.log.firstSeqs.get q := by
  show (s.log.firstSeqs.set r.val none).get q = _
  split_ifs with h
  · rw [h]
    exact get_set_self _ r none
  · exact get_set_other _ h none

theorem State.firstRecord_untracked (s : State) (r q : RegionId) (i : Nat) (seq : Word32) :
    FirstRecord (s.untracked r) q i seq ↔ q ≠ r ∧ FirstRecord s q i seq := by
  unfold FirstRecord
  rw [State.firstSeqs_untracked]
  split_ifs with h
  · simp [h]
  · exact ⟨fun k => ⟨h, k⟩, fun k => k.2⟩

/-! ## The stride trigger (R53) -/

/-- The stride condition does not hold, an anchor write becomes wanted, or one starts. -/
theorem State.strideTrigger_cases (s : State) :
    s.strideDue = false ∧ s.strideTrigger = s ∨
      s.strideDue = true ∧ ((∃ a, s.log.anchor = some a) ∧ s.strideTrigger = (s.updLog fun l => { l with anchorWanted := true }) ∨
        s.log.anchor = none ∧ s.strideTrigger = s.startAnchor .reclaim) := by
  unfold State.strideTrigger
  cases s.strideDue with
  | false => exact .inl ⟨rfl, rfl⟩
  | true =>
    refine .inr ⟨rfl, ?_⟩
    cases s.log.anchor with
    | none => exact .inr ⟨rfl, rfl⟩
    | some a => exact .inl ⟨⟨a, rfl⟩, rfl⟩

theorem State.strideDue_iff {s : State} (h : s.device = .run ∨ s.device = .restoring) :
    s.strideDue = true ↔ 0 < ringDistance s.log.ring s.log.durableTail s.log.volatileTail ∧
      s.params.anchorStride ≤ ringDistance s.log.ring s.log.durableTail s.log.volatileTail := by
  simp [State.strideDue, h]

/-- What the start of an anchor write changes. -/
theorem State.startAnchor_log {s : State} (p : AnchorPurpose) (h : s.log.geometry ≠ none) :
    ∃ a, a.purpose = p ∧ a.sequence = s.log.anchorSeq + 1 ∧ a.tail = s.log.volatileTail ∧ a.tailSeq = s.log.tailSeq ∧
      (s.startAnchor p).log = { s.log with anchor := some a } := by
  obtain ⟨g, hg⟩ := Option.ne_none_iff_exists'.mp h
  obtain ⟨⟨a, anchor, purpose, -, -, sequence, tail, tailSeq, -⟩, a', k⟩ := s.startAnchor_started p g hg
  refine ⟨a, purpose, sequence, tail, tailSeq, ?_⟩
  rw [k] at anchor ⊢
  obtain rfl : a' = a := Option.some.inj anchor
  rfl

theorem Keeps.startAnchor (s : State) (p : AnchorPurpose) : Keeps [.log, .dport] s (s.startAnchor p) := by
  unfold State.startAnchor
  split
  · exact .refl _ s
  · exact ((Keeps.updLog _ rfl).mono (by decide)).trans ((Keeps.updDport _ _).mono (by decide))

theorem State.tag_startAnchor (s : State) (p : AnchorPurpose) (g : DownTag) : (s.startAnchor p).tag g = s.tag g := by
  unfold State.startAnchor
  split <;> rfl

theorem Keeps.strideTrigger (s : State) : Keeps [.log, .dport] s s.strideTrigger := by
  obtain ⟨-, k⟩ | ⟨-, ⟨-, k⟩ | ⟨-, k⟩⟩ := s.strideTrigger_cases <;> rw [k]
  · exact .refl _ s
  · exact (Keeps.updLog s rfl).mono (by decide)
  · exact .startAnchor s _

theorem State.tag_strideTrigger (s : State) (g : DownTag) : s.strideTrigger.tag g = s.tag g := by
  obtain ⟨-, k⟩ | ⟨-, ⟨-, k⟩ | ⟨-, k⟩⟩ := s.strideTrigger_cases <;> rw [k]
  · rfl
  · exact s.tag_startAnchor _ g

theorem Keeps.spaceEvent (s : State) : Keeps [.writer] s s.spaceEvent := by
  rw [State.spaceEvent_eq]
  exact Keeps.updWriter s fun w =>
    { w with held := Vector.ofFn fun r => (w.held.get r).map fun h => { h with retryDue := true } }

theorem State.held_spaceEvent (s : State) (q : RegionId) :
    s.spaceEvent.writer.held.get q = (s.writer.held.get q).map fun h => { h with retryDue := true } := by
  rw [State.spaceEvent_eq]
  simp [Vector.get_eq_getElem]

/-! ## The resolution -/

/-- The log after region `r`'s transaction is taken from it, before the tail's move is looked at. -/
def State.retailed (s : State) (r : RegionId) : State := (s.untracked r).recomputeTail

theorem State.resolve_cases (s : State) (r : RegionId) :
    (s.retailed r).log.volatileTail = s.log.volatileTail ∧ s.resolve r = s.retailed r ∨
      (s.retailed r).log.volatileTail ≠ s.log.volatileTail ∧
        s.resolve r = (s.retailed r).spaceEvent.strideTrigger := by
  rw [State.resolve_eq]
  by_cases h : ((s.untracked r).recomputeTail).log.volatileTail = s.log.volatileTail
  · exact .inl ⟨h, if_pos h⟩
  · exact .inr ⟨h, if_neg h⟩

/-- A log without its anchor write and the mark of one wanted. -/
def LogState.anchorless (l : LogState) : LogState := { l with anchor := none, anchorWanted := false }

theorem State.log_spaceEvent (s : State) : s.spaceEvent.log = s.log := by rw [State.spaceEvent_eq]

theorem State.anchorless_strideTrigger {s : State} (hg : s.log.geometry ≠ none) :
    s.strideTrigger.log.anchorless = s.log.anchorless := by
  obtain ⟨-, k⟩ | ⟨-, ⟨-, k⟩ | ⟨-, k⟩⟩ := s.strideTrigger_cases <;> rw [k]
  · rfl
  · obtain ⟨a, -, -, -, -, log⟩ := State.startAnchor_log (s := s) .reclaim hg
    rw [log]
    rfl

theorem State.anchorless_resolve {s : State} (hg : s.log.geometry ≠ none) (r : RegionId) :
    (s.resolve r).log.anchorless = (s.retailed r).log.anchorless := by
  obtain ⟨-, k⟩ | ⟨-, k⟩ := s.resolve_cases r <;> rw [k]
  have log := (s.retailed r).log_spaceEvent
  rw [State.anchorless_strideTrigger (by rw [log]; exact hg), log]

/-- What a stride trigger does after a tail has moved in RUN or RESTORING (R52, R53). -/
theorem State.strideTrigger_effect {s : State} (hd : s.device = .run ∨ s.device = .restoring) (hg : s.log.geometry ≠ none) :
    let d := ringDistance s.log.ring s.log.durableTail s.log.volatileTail
    (d = 0 ∨ d < s.params.anchorStride →
      s.strideTrigger.log.anchor = s.log.anchor ∧ s.strideTrigger.log.anchorWanted = s.log.anchorWanted) ∧
    (0 < d → s.params.anchorStride ≤ d →
      (∀ a, s.log.anchor = some a → s.strideTrigger.log.anchor = some a ∧ s.strideTrigger.log.anchorWanted = true) ∧
      (s.log.anchor = none → ∃ a, s.strideTrigger.log.anchor = some a ∧ a.purpose = .reclaim ∧
        a.sequence = s.log.anchorSeq + 1 ∧ a.tail = s.log.volatileTail ∧ a.tailSeq = s.log.tailSeq ∧
        s.strideTrigger.log.anchorWanted = s.log.anchorWanted)) := by
  intro d
  have due := State.strideDue_iff hd
  obtain ⟨hn, k⟩ | ⟨hy, k⟩ := s.strideTrigger_cases
  · rw [k]
    refine ⟨fun _ => ⟨rfl, rfl⟩, fun h0 h1 => ?_⟩
    rw [due.mpr ⟨h0, h1⟩] at hn
    cases hn
  · obtain ⟨h0, h1⟩ := due.mp hy
    refine ⟨fun h => ?_, fun _ _ => ?_⟩
    · exact absurd h (not_or.mpr ⟨h0.ne', not_lt.mpr h1⟩)
    · obtain ⟨⟨b, hb⟩, k⟩ | ⟨hn, k⟩ := k <;> rw [k]
      · refine ⟨fun a ha => ⟨ha, rfl⟩, fun ha => ?_⟩
        rw [hb] at ha
        cases ha
      · obtain ⟨a, purpose, sequence, tail, tailSeq, log⟩ := State.startAnchor_log (s := s) .reclaim hg
        rw [log]
        refine ⟨fun a ha => ?_, fun _ => ⟨a, rfl, purpose, sequence, tail, tailSeq, rfl⟩⟩
        rw [hn] at ha
        cases ha

theorem State.resolve_resolved {s : State} (hd : s.device = .run ∨ s.device = .restoring) (hg : s.log.geometry ≠ none)
    (r : RegionId) : Resolved s.log.ring s (s.resolve r) r := by
  have core := State.anchorless_resolve hg r
  have volatileTail : (s.resolve r).log.volatileTail = (s.untracked r).earliestTail.1 :=
    (congrArg LogState.volatileTail core :)
  have tailSeq : (s.resolve r).log.tailSeq = (s.untracked r).earliestTail.2 := (congrArg LogState.tailSeq core :)
  have cases := s.resolve_cases r
  constructor
  case unresolved => exact (congrArg LogState.unresolved core :)
  case firstSeqs =>
    intro q
    have k : (s.resolve r).log.firstSeqs = (s.untracked r).log.firstSeqs := (congrArg LogState.firstSeqs core :)
    rw [k, State.firstSeqs_untracked]
  case noneLeft =>
    intro h
    have none := State.earliestTail_none (s := s.untracked r) fun q i seq k => by
      obtain ⟨hq, k⟩ := (s.firstRecord_untracked r q i seq).mp k
      exact h q i seq hq k
    rw [volatileTail, tailSeq, none]
    exact ⟨rfl, rfl⟩
  case earliest =>
    intro q i seq hq k
    obtain ⟨⟨q', k'⟩, le⟩ := State.earliestTail_some ((s.firstRecord_untracked r q i seq).mpr ⟨hq, k⟩)
    obtain ⟨hq', k'⟩ := (s.firstRecord_untracked r q' _ _).mp k'
    exact ⟨q', _, _, hq', k', volatileTail, tailSeq, le⟩
  case still =>
    intro h
    obtain ⟨-, k⟩ | ⟨moved, -⟩ := cases
    · rw [k]
      exact ⟨rfl, rfl, rfl⟩
    · exact absurd (volatileTail.symm.trans h) moved
  case moved =>
    intro h
    obtain ⟨still, -⟩ | ⟨-, k⟩ := cases
    · exact absurd (volatileTail.trans still) h
    · have log := (s.retailed r).log_spaceEvent
      have keeps := Keeps.spaceEvent (s.retailed r)
      have params : (s.retailed r).spaceEvent.params = s.params := keeps.part .params rfl
      have device : (s.retailed r).spaceEvent.device = s.device := keeps.part .device rfl
      have effect := State.strideTrigger_effect (s := (s.retailed r).spaceEvent) (by rw [device]; exact hd)
        (by rw [log]; exact hg)
      have held := (s.retailed r).held_spaceEvent
      have trigger : (s.resolve r).writer = (s.retailed r).spaceEvent.writer := by
        rw [k]
        exact (Keeps.strideTrigger _).part .writer rfl
      rw [← k, log, params] at effect
      refine ⟨fun q => ?_, ?_⟩
      · rw [trigger, held]
        rfl
      · rw [volatileTail, tailSeq]
        exact effect
  case stands =>
    exact ⟨(congrArg LogState.head core :), (congrArg LogState.nextSeq core :), (congrArg LogState.durableTail core :),
      (congrArg LogState.slot core :), (congrArg LogState.anchorSeq core :), (congrArg LogState.geometry core :)⟩

/-- What else a resolution leaves: everything but the log, the HELD groups' retry marks and the anchor queue. -/
theorem Keeps.resolve (s : State) (r : RegionId) : Keeps [.log, .writer, .dport] s (s.resolve r) := by
  have tail : Keeps [.log, .writer, .dport] s (s.retailed r) :=
    (Keeps.updLog s rfl).mono (by decide) |>.trans ((Keeps.updLog (s.untracked r) rfl).mono (by decide))
  obtain ⟨-, k⟩ | ⟨-, k⟩ := s.resolve_cases r <;> rw [k]
  · exact tail
  · exact (tail.trans ((Keeps.spaceEvent _).mono (by decide))).trans ((Keeps.strideTrigger _).mono (by decide))

theorem State.tag_resolve (s : State) (r : RegionId) (g : DownTag) : (s.resolve r).tag g = s.tag g := by
  obtain ⟨-, k⟩ | ⟨-, k⟩ := s.resolve_cases r <;> rw [k]
  · rfl
  · rw [State.tag_strideTrigger, State.spaceEvent_eq]
    rfl

/-- A Log Writer without its HELD groups. -/
def LogWriter.unheld (w : LogWriter) : LogWriter := { w with held := Vector.replicate 8 none }

theorem State.unheld_resolve (s : State) (r : RegionId) : (s.resolve r).writer.unheld = s.writer.unheld := by
  obtain ⟨-, k⟩ | ⟨-, k⟩ := s.resolve_cases r <;> rw [k]
  · rfl
  · rw [(Keeps.strideTrigger _).part .writer rfl, State.spaceEvent_eq]
    rfl

end Sys2Proof.Machine
end

section
/-! SUPPORT. The last read-back of a record: the record is durable, an UNDO record releases its group and a closing record
ends its transaction (R21, R73, R94, R102). -/

namespace Sys2Proof.Machine

/-! ## The last good read-back (R102) -/

/-- The last read-back of an attempt without a failure, found as written, makes the unit durable. -/
theorem VerifiedUnit.take_durable {u : VerifiedUnit} {a : Nat} {d : Line} (hr : u.readBack = true) (hl : u.left = 1)
    (hf : u.failed = false) (hm : (a, d) ∈ u.blocks) (limit : Nat) : u.take limit a (some d) = .durable := by
  have found : (u.blocks.any fun b => b.1 == a && b.2 == d) = true := List.any_eq_true.mpr ⟨(a, d), hm, by simp⟩
  have good : u.bad a (some d) = false := by
    show (u.readBack && !(u.blocks.any fun b => b.1 == a && b.2 == d)) = false
    rw [found, Bool.not_true, Bool.and_false]
  unfold VerifiedUnit.take
  rw [VerifiedUnit.judge_good _ _ (by simp [hl]) (by simp [hf, good])]
  exact if_pos hr

theorem State.unitOutcome_durable {s : State} {b : Build} {u : VerifiedUnit} {stage : VerifiedUnit → BuildStage}
    {seq : Word32} {done : State → State} {addr : Nat} {outcome : Option Line}
    (h : u.take s.params.retryLimit addr outcome = .durable) : s.unitOutcome b u stage seq done addr outcome = done s := by
  unfold State.unitOutcome
  dsimp only
  rw [h]

theorem State.writerOutcome_writing {s : State} {b : Build} {u : VerifiedUnit} (hb : s.writer.builder = some b)
    (hu : b.stage = .writing u) (addr : Nat) (outcome : Option Line) :
    s.writerOutcome addr outcome =
      s.unitOutcome b u .writing b.record.sequence (fun s => s.recordDurable b) addr outcome := by
  unfold State.writerOutcome
  rw [hb]
  dsimp only
  rw [hu]

/-- A response on an OUTSTANDING tag frees it and goes to its owner (R167). -/
theorem State.respond_outstanding {s : State} {g : DownTag} {owner : Owner} {cls : IssueClass} {op : Op}
    {addr timer at_ : Nat} {live : Bool} (h : s.tag g = .outstanding owner cls op addr timer at_ live) (data : Line) :
    s.respond g true data = ((s.setTag g .free).deliver owner live addr (some data)).followOn := by
  unfold State.respond
  rw [h]
  rfl

theorem not_quiescing_of_working {s : State} (h : s.device = .run ∨ s.device = .restoring) : s.device ≠ .quiescing := by
  obtain h | h := h <;> rw [h] <;> decide

theorem State.deliver_logWriter {s : State} (h : s.device ≠ .quiescing) (addr : Nat) (outcome : Option Line) :
    s.deliver .logWriter true addr outcome = s.writerOutcome addr outcome := if_neg h

/-- The state in which a record's last read-back leaves the builder: its tag is FREE and the builder IDLE. -/
def State.recordIn (s : State) (g : DownTag) : State := (s.setTag g .free).updWriter fun w => { w with builder := none }

theorem Keeps.recordIn (s : State) (g : DownTag) : Keeps [.writer, .dport] s (s.recordIn g) :=
  ((Keeps.updDport s _).mono (by decide)).trans ((Keeps.updWriter _ _).mono (by decide))

theorem State.tag_recordIn (s : State) (g : DownTag) : (s.recordIn g).tag g = .free :=
  (s.tag_setTag g g .free).trans (if_pos rfl)

/-! ## An UNDO record (R73) -/

/-- The writes of a group that wait for its record are released. -/
def State.releaseWrites (s : State) (tags : List HostTag) : State :=
  { s with table := s.table.map fun e =>
      if e.tag ∈ tags ∧ e.state = .waitLog then { e with state := .ready, handling := some .inPlace } else e }

theorem State.releaseWrite_releaseWrites (s : State) (tag : HostTag) (tags : List HostTag) :
    (s.releaseWrite tag).releaseWrites tags = s.releaseWrites (tag :: tags) := by
  unfold State.releaseWrites State.releaseWrite State.updEntry
  simp only [List.map_map]
  congr 1
  refine List.map_congr_left fun e _ => ?_
  by_cases ht : e.tag = tag <;> by_cases hl : e.state = .waitLog <;> simp [ht, hl]

theorem State.foldl_releaseWrite (tags : List HostTag) : ∀ s : State, tags.foldl State.releaseWrite s = s.releaseWrites tags := by
  induction tags with
  | nil =>
    intro s
    simp [State.releaseWrites]
  | cons tag tags ih =>
    intro s
    rw [List.foldl_cons, ih, State.releaseWrite_releaseWrites]

theorem Keeps.makeDurable (s : State) (r : RegionId) (lines : List Nat) : Keeps [.directory] s (s.makeDurable r lines) :=
  ⟨fun p hp => by cases p <;> simp_all [Part.same], rfl, rfl, rfl⟩

theorem Keeps.releaseWrites (s : State) (tags : List HostTag) : Keeps [.table] s (s.releaseWrites tags) :=
  ⟨fun p hp => by cases p <;> simp_all [Part.same, State.releaseWrites, State.region], rfl, rfl, rfl⟩

/-- An UNDO record durable after its last read-back on tag `g`. -/
theorem State.recordDurable_group {s : State} {b : Build} {grp : Group} (h : b.group = some grp) (g : DownTag) :
    (s.setTag g .free).recordDurable b =
      ((s.recordIn g).makeDurable grp.region grp.tracked).releaseWrites grp.members := by
  have e : (s.setTag g .free).recordDurable b =
      grp.members.foldl State.releaseWrite ((s.recordIn g).makeDurable grp.region grp.tracked) := by
    unfold State.recordDurable
    dsimp only
    rw [h]
    rfl
  rw [e, State.foldl_releaseWrite]

/-! ## A closing record (R21, R94) -/

/-- What the end of a transaction with records does: it is resolved, and its region returns to IDLE. -/
structure Closed (s t : State) (r : RegionId) : Prop where
  txn : (t.region r).txn = .idle
  sub : (t.region r).sub = .none
  number : (t.region r).number = nextNumber (s.region r).number
  records : (t.region r).records = (s.region r).records
  directory : t.directory = s.directory.filter fun d => d.region ≠ r
  writer : t.writer.unheld = s.writer.unheld
  tag : ∀ g, t.tag g = s.tag g
  resolved : Resolved s.log.ring s t r
  others : OtherRegions r s t
  keeps : Keeps [.regions, .drains, .directory, .log, .writer, .dport, .faults, .notices, .table, .responses] s t

/-- A resolution stays one where the log and the Log Writer stand. -/
theorem Resolved.after {n : Nat} {s t u : State} {r : RegionId} (h : Resolved n s t r) (hl : u.log.bare = t.log.bare)
    (hw : u.writer = t.writer) : Resolved n s u r := by
  have unresolved : u.log.unresolved = t.log.unresolved := (congrArg LogState.unresolved hl :)
  have firstSeqs : u.log.firstSeqs = t.log.firstSeqs := (congrArg LogState.firstSeqs hl :)
  have volatileTail : u.log.volatileTail = t.log.volatileTail := (congrArg LogState.volatileTail hl :)
  have tailSeq : u.log.tailSeq = t.log.tailSeq := (congrArg LogState.tailSeq hl :)
  have anchor : u.log.anchor = t.log.anchor := (congrArg LogState.anchor hl :)
  have anchorWanted : u.log.anchorWanted = t.log.anchorWanted := (congrArg LogState.anchorWanted hl :)
  have head : u.log.head = t.log.head := (congrArg LogState.head hl :)
  have nextSeq : u.log.nextSeq = t.log.nextSeq := (congrArg LogState.nextSeq hl :)
  have durableTail : u.log.durableTail = t.log.durableTail := (congrArg LogState.durableTail hl :)
  have slot : u.log.slot = t.log.slot := (congrArg LogState.slot hl :)
  have anchorSeq : u.log.anchorSeq = t.log.anchorSeq := (congrArg LogState.anchorSeq hl :)
  have geometry : u.log.geometry = t.log.geometry := (congrArg LogState.geometry hl :)
  constructor <;> simp only [unresolved, firstSeqs, volatileTail, tailSeq, anchor, anchorWanted, head, nextSeq, durableTail,
    slot, anchorSeq, geometry, hw]
  · exact h.unresolved
  · exact h.firstSeqs
  · exact h.noneLeft
  · exact h.earliest
  · exact h.still
  · exact h.moved
  · exact h.stands

theorem State.tag_congr {s t : State} (h : t.dport = s.dport) (g : DownTag) : t.tag g = s.tag g := by
  rw [State.tag, h]
  rfl

/-- A resolved transaction's region back in IDLE, with a notice. -/
theorem State.close_closed {s : State} {r : RegionId} (hd : s.device = .run ∨ s.device = .restoring)
    (hg : s.log.geometry ≠ none) (n : Source) : Closed s (((s.resolve r).returnToIdle r nextNumber).setNotice n) r := by
  have resolved := State.resolve_resolved hd hg r
  have keeps := Keeps.resolve s r
  have tag := s.tag_resolve r
  have writer := s.unheld_resolve r
  generalize s.resolve r = w at resolved keeps tag writer ⊢
  have back := w.returnToIdle_effect r nextNumber
  generalize w.returnToIdle r nextNumber = t at back ⊢
  obtain ⟨live, apply, k⟩ := back.region
  have bare := keeps.bare rfl r
  have number : (w.region r).number = (s.region r).number := (congrArg Region.number bare :)
  have records : (w.region r).records = (s.region r).records := (congrArg Region.records bare :)
  refine ⟨(congrArg Region.txn k :), (congrArg Region.sub k :), ?_, ?_, ?_, ?_, fun g => ?_, ?_, ?_, ?_⟩
  · rw [← number]
    exact (congrArg Region.number k :)
  · rw [← records]
    exact (congrArg Region.records k :)
  · exact back.directory.trans (by rw [keeps.part .directory rfl])
  · exact (congrArg LogWriter.unheld (back.keeps.part .writer rfl)).trans writer
  · exact (State.tag_congr (t := t.setNotice n) (s := w) (back.keeps.part .dport rfl) g).trans (tag g)
  · exact resolved.after (back.keeps.logBare rfl) (back.keeps.part .writer rfl)
  · exact (keeps.others r rfl).trans back.others
  · exact ((keeps.mono (by decide)).trans (back.keeps.mono (by decide))).notice n rfl

theorem State.completeCommit_records {s : State} {r : RegionId} (h : (s.region r).records ≠ 0) :
    s.completeCommit r = ((s.resolve r).returnToIdle r nextNumber).setNotice (commitDone r) := by
  unfold State.completeCommit
  rw [if_neg h]

theorem State.tag_endWalk (s : State) (g : DownTag) : s.endWalk.tag g = Tag.discardedBy .rollback (s.tag g) := by
  rw [State.endWalk_eq, State.stopOwner_eq]
  simp [State.tag, Vector.get_eq_getElem]

theorem Keeps.endWalk (s : State) : Keeps [.engine, .drains, .dport] s s.endWalk := by
  rw [State.endWalk_eq, State.stopOwner_eq]
  exact ⟨fun p hp => by cases p <;> simp_all [Part.same, State.region], rfl, rfl, rfl⟩

theorem State.log_endWalk (s : State) : s.endWalk.log = s.log := by
  rw [State.endWalk_eq, State.stopOwner_eq]

theorem State.region_endWalk (s : State) (r : RegionId) : s.endWalk.region r = s.region r := by
  rw [State.endWalk_eq, State.stopOwner_eq]
  rfl

theorem State.engine_endWalk (s : State) :
    s.endWalk.engine = ⟨s.engine.queue, none, false, [], none, none, [], [], none, s.engine.walked, none⟩ := by
  rw [State.endWalk_eq]

/-- The engine without its drain set. -/
def Engine.bare (e : Engine) : Engine := { e with drain := [] }

theorem Keeps.engineBare {c : List Part} {s t : State} (h : Keeps c s t) (hc : c.contains .engine = false) :
    t.engine.bare = s.engine.bare := h.part .engine hc

/-- A response that makes the builder's record durable (R102). -/
theorem State.respond_durable {s : State} {g : DownTag} {d : Line} {b : Build} {u : VerifiedUnit} {a : Nat} {cls op timer at_}
    (hi : s.inReset = false) (hd : s.device = .run ∨ s.device = .restoring)
    (ht : s.tag g = .outstanding .logWriter cls op a timer at_ true) (hb : s.writer.builder = some b)
    (hu : b.stage = .writing u) (hr : u.readBack = true) (hl : u.left = 1) (hf : u.failed = false) (hm : (a, d) ∈ u.blocks) :
    exec (.downstreamResponse g true d) s = .next ((s.setTag g .free).recordDurable b).followOn := by
  refine congrArg Host.Outcome.next ((State.unlessReset_acts hi _).trans ?_)
  have quiet : (s.setTag g .free).device ≠ .quiescing := not_quiescing_of_working hd
  rw [State.respond_outstanding ht, State.deliver_logWriter quiet, State.writerOutcome_writing (s := s.setTag g .free) hb hu,
    State.unitOutcome_durable (VerifiedUnit.take_durable hr hl hf hm _)]

/-- A closing record made durable: its tag is FREE and its transaction ended. -/
structure ClosedBy (g : DownTag) (s t : State) (r : RegionId) : Prop where
  closed : Closed (s.recordIn g) t r
  tag : t.tag g = .free
  builder : t.writer.builder = none
  closing : t.writer.closing = s.writer.closing
  keeps : Keeps [.regions, .drains, .directory, .log, .writer, .dport, .faults, .notices, .table, .responses] s t

theorem Closed.closedBy {g : DownTag} {s t : State} {r : RegionId} (k : Closed (s.recordIn g) t r) : ClosedBy g s t r :=
  ⟨k, (k.tag g).trans (s.tag_recordIn g), (congrArg LogWriter.builder k.writer :), (congrArg LogWriter.closing k.writer :),
    ((Keeps.recordIn s g).mono (by decide)).trans k.keeps⟩

/-- A resolution does not look at the builder or at the tags. -/
theorem Resolved.of_recordIn {n : Nat} {g : DownTag} {s t : State} {r : RegionId} (h : Resolved n (s.recordIn g) t r) :
    Resolved n s t r :=
  ⟨h.unresolved, h.firstSeqs, h.noneLeft, h.earliest, h.still, h.moved, h.stands⟩

/-- Settles O43. -/
theorem verifiedRecordReleasesItsGroup : Obligations.VerifiedRecordReleasesItsGroup := by
  intro g d b u a cls op timer at_ s hi hd ht hb hu hr hl hf hm
  have he := State.respond_durable hi hd ht hb hu hr hl hf hm
  refine ⟨fun grp hgrp => ?_, fun hgrp => ?_⟩
  · rw [State.recordDurable_group hgrp] at he
    refine ⟨_, he, s.tag_recordIn g, rfl, rfl, rfl, ?_⟩
    exact (((Keeps.recordIn s g).mono (by decide)).trans ((Keeps.makeDurable _ _ _).mono (by decide))).trans
      ((Keeps.releaseWrites _ _).mono (by decide))
  · extract_lets r closed
    refine ⟨fun hk h0 hg => ?_, fun hk hg => ?_⟩
    · have e : (s.setTag g .free).recordDurable b =
          (((s.recordIn g).resolve r).returnToIdle r nextNumber).setNotice (commitDone r) := by
        unfold State.recordDurable
        dsimp only
        rw [hgrp]
        dsimp only
        rw [hk]
        exact State.completeCommit_records (s := s.recordIn g) h0
      have k := (State.close_closed (s := s.recordIn g) (r := r) hd hg (commitDone r)).closedBy
      have flag := State.flag_setNotice_self (((s.recordIn g).resolve r).returnToIdle r nextNumber) (commitDone r)
      rw [e] at he
      generalize (((s.recordIn g).resolve r).returnToIdle r nextNumber).setNotice (commitDone r) = t at he k flag
      have c := k.closed
      exact ⟨t, he, ⟨k.tag, c.txn, c.sub, c.number, c.records, c.directory, k.builder, k.closing, c.resolved.of_recordIn, c.others⟩, flag,
        k.keeps⟩
    · have e : (s.setTag g .free).recordDurable b =
          ((((s.recordIn g).resolve r).returnToIdle r nextNumber).setNotice (rollbackDone r)).endWalk := by
        unfold State.recordDurable
        dsimp only
        rw [hgrp]
        dsimp only
        rw [hk]
        rfl
      have k := (State.close_closed (s := s.recordIn g) (r := r) hd hg (rollbackDone r)).closedBy
      have flag := State.flag_setNotice_self (((s.recordIn g).resolve r).returnToIdle r nextNumber) (rollbackDone r)
      rw [e] at he
      generalize (((s.recordIn g).resolve r).returnToIdle r nextNumber).setNotice (rollbackDone r) = t at he k flag
      have c := k.closed
      have stop := Keeps.endWalk t
      have region := t.region_endWalk r
      have writer : t.endWalk.writer = t.writer := stop.part .writer rfl
      have engine := k.keeps.engineBare rfl
      have queue : t.engine.queue = s.engine.queue := (congrArg Engine.queue engine :)
      have walked : t.engine.walked = s.engine.walked := (congrArg Engine.walked engine :)
      have resolved : Resolved s.log.ring s t.endWalk r :=
        c.resolved.of_recordIn.after (congrArg LogState.bare t.log_endWalk) writer
      refine ⟨t.endWalk, he, ⟨?_, ?_, ?_, ?_, ?_, ?_, ?_, ?_, resolved, ?_⟩, ?_, ?_, ?_⟩
      · rw [State.tag_endWalk, k.tag]
        rfl
      · rw [region, c.txn]
      · rw [region, c.sub]
      · rw [region, c.number]
        rfl
      · rw [region, c.records]
        rfl
      · exact (stop.part .directory rfl).trans c.directory
      · rw [writer, k.builder]
      · rw [writer, k.closing]
      · exact OtherRegions.trans (s := s) c.others (stop.others r rfl)
      · rw [stop.flag _ rfl, flag]
      · rw [State.engine_endWalk, queue, walked]
      · exact (k.keeps.mono (by decide)).trans (stop.mono (by decide))

end Sys2Proof.Machine
end

section
/-! SUPPORT. A refused group under each space policy (R75 to R78). -/

namespace Sys2Proof.Machine

/-! ## The log beside its deferred admission -/

/-- A log without its deferred admission and FORMAT's drain set. -/
def LogState.undeferred (l : LogState) : LogState := { l with deferred := none, formatDrain := [] }

theorem Keeps.undeferred {c : List Part} {s t : State} (h : Keeps c s t) (hc : c.contains .log = false) :
    t.log.undeferred = s.log.undeferred := (congrArg LogState.undeferred (h.logBare hc) :)

theorem State.undeferred_withdrawn (s : State) (r : RegionId) : (s.withdrawn r).log.undeferred = s.log.undeferred := by
  unfold State.withdrawn State.dropWaitingGroups
  dsimp only
  split_ifs <;> rfl

/-- An abort leaves the log but for its region's deferred admission. -/
theorem State.undeferred_abortTxn (s : State) (r : RegionId) : (s.abortTxn r).log.undeferred = s.log.undeferred := by
  have withdrawn := s.undeferred_withdrawn r
  rw [State.abortTxn_eq]
  generalize s.withdrawn r = w at withdrawn ⊢
  split_ifs
  · have back := (w.returnToIdle_effect r nextNumber).keeps.undeferred rfl
    generalize w.returnToIdle r nextNumber = t at back ⊢
    exact back.trans withdrawn
  · exact withdrawn

/-! ## The three policies (R76 to R78) -/

/-- Where a group waits no more (R75). -/
structure GroupDiscarded (s t : State) (g : Group) : Prop where
  held : t.writer.held.get g.region = none
  lastServed : t.writer.lastServed = s.writer.lastServed
  builder : t.writer.builder = s.writer.builder
  granted : t.writer.granted = s.writer.granted
  closing : t.writer.closing = s.writer.closing
  deferred : t.writer.deferred = none ∧ t.log.deferred = none
  log : t.log.undeferred = s.log.undeferred

theorem State.discardGroup_discarded (s : State) (g : Group) : GroupDiscarded s (s.discardGroup g) g :=
  ⟨get_set_self s.writer.held g.region none, rfl, rfl, rfl, rfl, ⟨rfl, rfl⟩, rfl⟩

theorem Keeps.discardGroup (s : State) (g : Group) : Keeps [.writer, .log] s (s.discardGroup g) :=
  ((Keeps.updWriter s _).mono (by decide)).trans ((Keeps.updLog _ rfl).mono (by decide))

/-- Discarded where the Log Writer and the log stood before. -/
theorem GroupDiscarded.before {s t u : State} {g : Group} (h : GroupDiscarded t u g) (hw : t.writer = s.writer)
    (hl : t.log.undeferred = s.log.undeferred) : GroupDiscarded s u g := by
  obtain ⟨held, lastServed, builder, granted, closing, deferred, log⟩ := h
  rw [hw] at lastServed builder granted closing
  exact ⟨held, lastServed, builder, granted, closing, deferred, log.trans hl⟩

theorem State.ownFirstAtTail_iff (s : State) (r : RegionId) : s.ownFirstAtTail r = true ↔ Pinned s r := by
  simp [State.ownFirstAtTail, Pinned]

/-- The group's members answered and its PENDING entries removed (R77). -/
structure GroupFailed (s t : State) (g : Group) : Prop where
  discarded : GroupDiscarded s t g
  table : t.table = s.table.filter fun e => !g.members.contains e.tag
  responses : t.responses = s.responses ++
    (s.table.filter fun e => g.members.contains e.tag).map fun e => e.errResponse .noSpace
  directory : t.directory = s.directory.filter fun d => !(d.region == g.region && !d.durable && g.tracked.contains d.line)
  bare : ∀ r, (t.region r).bare = (s.region r).bare
  keeps : Keeps [.writer, .log, .table, .directory, .drains, .responses] s t

theorem State.refuseFail_failed (s : State) (g : Group) : GroupFailed s (s.refuseFail g) g := by
  unfold State.refuseFail
  obtain ⟨table, responses⟩ := s.answerMembers g.members .noSpace
  have answer := Keeps.answerErrors s (s.entriesOf g.members) fun _ => .noSpace
  generalize (s.answerErrors (s.entriesOf g.members) fun _ => .noSpace) = a at table responses answer ⊢
  have drop := Keeps.dropPending a g.region g.tracked
  have discard := Keeps.discardGroup (a.dropPending g.region g.tracked) g
  have discarded := (a.dropPending g.region g.tracked).discardGroup_discarded g
  refine ⟨discarded.before (answer.part .writer rfl) (answer.undeferred rfl), table, responses, ?_, fun r => answer.bare rfl r,
    (answer.mono (by decide)).trans ((drop.mono (by decide)).trans (discard.mono (by decide)))⟩
  show a.directory.filter _ = _
  rw [answer.part .directory rfl]
  simp

/-- The group HELD, not retry-due, and its members in WAIT_SPACE (R76). -/
structure GroupHeld (s t : State) (g : Group) : Prop where
  held : t.writer.held.get g.region = some ⟨g, false⟩
  lastServed : t.writer.lastServed = s.writer.lastServed
  builder : t.writer.builder = s.writer.builder
  granted : t.writer.granted = s.writer.granted
  closing : t.writer.closing = s.writer.closing
  deferred : t.writer.deferred = none ∧ t.log.deferred = none
  log : t.log.undeferred = s.log.undeferred
  table : t.table = (s.moveEntries g.members .waitSpace).table
  directory : t.directory = s.directory
  region : ∀ r, t.region r = s.region r
  keeps : Keeps [.writer, .log, .table] s t

theorem State.refuseWait_held (s : State) (g : Group) : GroupHeld s (s.refuseWait g) g := by
  have keeps : Keeps [.writer, .log, .table] s (s.refuseWait g) :=
    ((Keeps.discardGroup s g).mono (by decide)).trans
      (((Keeps.updWriter _ _).mono (by decide)).trans ((Keeps.moveEntries _ _ _).mono (by decide)))
  exact ⟨get_set_self _ g.region _, rfl, rfl, rfl, rfl, ⟨rfl, rfl⟩, rfl, rfl, rfl, fun _ => rfl, keeps⟩

/-- The group's members answered ABORTED, the group discarded (R78). -/
structure GroupAnswered (s t : State) (g : Group) : Prop where
  discarded : GroupDiscarded s t g
  table : t.table = s.table.filter fun e => !g.members.contains e.tag
  responses : t.responses = s.responses ++
    (s.table.filter fun e => g.members.contains e.tag).map fun e => e.errResponse .aborted
  bare : ∀ r, (t.region r).bare = (s.region r).bare
  keeps : Keeps [.writer, .log, .table, .drains, .responses] s t

theorem State.answerAborted (s : State) (g : Group) :
    GroupAnswered s ((s.answerErrors (s.entriesOf g.members) fun _ => .aborted).discardGroup g) g := by
  obtain ⟨table, responses⟩ := s.answerMembers g.members .aborted
  have answer := Keeps.answerErrors s (s.entriesOf g.members) fun _ => .aborted
  generalize (s.answerErrors (s.entriesOf g.members) fun _ => .aborted) = a at table responses answer ⊢
  exact ⟨(a.discardGroup_discarded g).before (answer.part .writer rfl) (answer.undeferred rfl), table, responses,
    fun r => answer.bare rfl r, (answer.mono (by decide)).trans ((Keeps.discardGroup a g).mono (by decide))⟩

/-- The group's members answered ABORTED and its transaction aborted (R78). -/
structure GroupAborted (s t : State) (g : Group) : Prop where
  discarded : GroupDiscarded s t g
  answered : ∀ e ∈ s.table, g.members.contains e.tag = true → e.errResponse .aborted ∈ t.responses
  gone : ∀ e ∈ t.table, g.members.contains e.tag = false
  directory : ∀ d ∈ t.directory, d.region ≠ g.region
  others : OtherRegions g.region s t
  saturated : (t.region g.region).saturated = (s.region g.region).saturated
  idle : (s.region g.region).records = 0 → s.hasBusyGroup g.region = false →
    (t.region g.region).txn = .idle ∧ t.flag (rollbackDone g.region) = true ∧ t.engine.queue = s.engine.queue
  walk : (s.region g.region).records ≠ 0 ∨ s.hasBusyGroup g.region = true →
    (t.region g.region).txn = .rollingBack ∧ (t.region g.region).sub = .queued ∧
      t.engine.queue = s.engine.queue ++ [g.region]
  keeps : Keeps [.regions, .drains, .directory, .log, .writer, .engine, .faults, .notices, .table, .responses] s t

/-- Discarded groups stay discarded in an abort of their region. -/
theorem GroupDiscarded.abort {s v t : State} {g : Group} (h : GroupDiscarded s v g) (k : GroupsDropped v t g.region)
    (log : t.log.undeferred = v.log.undeferred) : GroupDiscarded s t g := by
  refine ⟨k.held, k.lastServed.trans h.lastServed, k.builder.trans h.builder, k.granted.trans h.granted,
    k.closing.trans h.closing, ?_, log.trans h.log⟩
  obtain ⟨writer, admission⟩ := h.deferred
  by_cases hd : v.defers g.region
  · exact k.withdrawn hd
  · obtain ⟨writer', admission'⟩ := k.stands hd
    exact ⟨writer'.trans writer, admission'.trans admission⟩

theorem State.refuseAbort_aborted (s : State) (g : Group) : GroupAborted s (s.refuseAbort g) g := by
  unfold State.refuseAbort
  have a := s.answerAborted g
  generalize ((s.answerErrors (s.entriesOf g.members) fun _ => .aborted).discardGroup g) = v at a ⊢
  have kept := Kept.abortTxn v g.region
  have log := v.undeferred_abortTxn g.region
  have bare := a.bare g.region
  have records : (v.region g.region).records = (s.region g.region).records := (congrArg Region.records bare :)
  have saturated : (v.region g.region).saturated = (s.region g.region).saturated := (congrArg Region.saturated bare :)
  have busy : v.hasBusyGroup g.region = s.hasBusyGroup g.region :=
    State.hasBusyGroup_congr a.discarded.builder a.discarded.granted g.region
  have queue : v.engine.queue = s.engine.queue := a.keeps.queue rfl
  have answered (t : State) (h : ∃ more, t.responses = v.responses ++ more) :
      ∀ e ∈ s.table, g.members.contains e.tag = true → e.errResponse .aborted ∈ t.responses := by
    intro e he hm
    obtain ⟨more, h⟩ := h
    have mem : e.errResponse .aborted ∈ v.responses := by
      rw [a.responses]
      exact List.mem_append_right _ (List.mem_map_of_mem (List.mem_filter.mpr ⟨he, hm⟩))
    rw [h]
    exact List.mem_append_left _ mem
  have gone (t : State) (h : t.tags.Sublist v.tags) : ∀ e ∈ t.table, g.members.contains e.tag = false := by
    intro e he
    obtain ⟨x, hx, tag⟩ := List.mem_map.mp (h.subset (List.mem_map_of_mem he))
    rw [a.table] at hx
    rw [← tag]
    simpa using (List.mem_filter.mp hx).2
  by_cases must : v.mustWalk g.region
  · have k := State.abortTxn_walk must
    generalize v.abortTxn g.region = t at kept log k ⊢
    refine ⟨a.discarded.abort k.groups log, answered t kept.responses, gone t kept.sub, fun d hd => ?_,
      (a.keeps.others _ rfl).trans k.others, ?_, fun h0 hb => ?_, fun _ => ⟨?_, ?_, ?_⟩,
      (a.keeps.mono (by decide)).trans (k.keeps.mono (by decide))⟩
    · rw [k.directory] at hd
      simpa using (List.mem_filter.mp hd).2
    · rw [k.region]
      exact saturated
    · rw [State.mustWalk, records, busy, h0, hb] at must
      simp at must
    · rw [k.region]
    · rw [k.region]
    · rw [k.engine, queue]
  · obtain ⟨h0, hb⟩ := State.not_mustWalk must
    have k := State.abortTxn_idle h0 hb
    generalize v.abortTxn g.region = t at kept log k ⊢
    obtain ⟨live, apply, region⟩ := k.region
    refine ⟨a.discarded.abort k.groups log, answered t kept.responses, gone t kept.sub, fun d hd => ?_,
      (a.keeps.others _ rfl).trans k.others, ?_, fun _ _ => ⟨k.txn.1, k.done, ?_⟩, fun h => ?_,
      (a.keeps.mono (by decide)).trans (k.keeps.mono (by decide))⟩
    · rw [k.directory] at hd
      simpa using (List.mem_filter.mp hd).2
    · exact (congrArg Region.saturated region).trans saturated
    · rw [k.keeps.queue rfl, queue]
    · rw [← records, ← busy] at h
      exact absurd h must

/-! ## The refusal (R75) -/

/-- What a refusal does beside what `GroupRefused` says of it. -/
structure RefusalLeaves (s t : State) (g : Group) : Prop where
  lastServed : t.writer.lastServed = s.writer.lastServed
  saturated : (t.region g.region).saturated = (s.region g.region).saturated
  log : t.log.undeferred = s.log.undeferred
  device : t.device = s.device
  dport : t.dport = s.dport
  params : t.params = s.params

theorem State.refuse_opened {s : State} {g : Group} (h : (s.region g.region).txn = .opened) :
    s.refuse g = match (s.region g.region).live.space with
      | .wait => if s.ownFirstAtTail g.region then s.refuseFail g else s.refuseWait g
      | .fail => s.refuseFail g
      | .abort => s.refuseAbort g := if_pos h

/-- Which policy a refused group meets. -/
theorem State.refuse_cases (s : State) (g : Group) :
    ((s.region g.region).txn = .opened ∧ (s.region g.region).live.space = .wait ∧ ¬Pinned s g.region) ∧
        s.refuse g = s.refuseWait g ∨
      ((s.region g.region).txn = .opened ∧ (s.region g.region).live.space = .abort) ∧ s.refuse g = s.refuseAbort g ∨
      ((s.region g.region).txn = .opened → (s.region g.region).live.space ≠ .abort ∧
          ((s.region g.region).live.space = .wait → Pinned s g.region)) ∧ s.refuse g = s.refuseFail g := by
  have pinned := s.ownFirstAtTail_iff g.region
  by_cases ho : (s.region g.region).txn = .opened
  · rw [State.refuse_opened ho]
    cases hp : (s.region g.region).live.space with
    | wait =>
      by_cases h : Pinned s g.region
      · refine .inr (.inr ⟨fun _ => ⟨by simp, fun _ => h⟩, ?_⟩)
        exact if_pos (pinned.mpr h)
      · refine .inl ⟨⟨ho, rfl, h⟩, ?_⟩
        exact if_neg fun k => h (pinned.mp k)
    | fail => exact .inr (.inr ⟨fun _ => ⟨by simp, by simp⟩, rfl⟩)
    | abort => exact .inr (.inl ⟨⟨ho, rfl⟩, rfl⟩)
  · exact .inr (.inr ⟨fun h => absurd h ho, if_neg ho⟩)

theorem State.refuse_refused (s : State) (g : Group) :
    GroupRefused s (s.refuse g) g.region g s.directory [] ∧ RefusalLeaves s (s.refuse g) g := by
  obtain ⟨⟨ho, hp, hn⟩, e⟩ | ⟨⟨ho, hp⟩, e⟩ | ⟨hf, e⟩ := s.refuse_cases g <;> rw [e]
  · have k := s.refuseWait_held g
    generalize s.refuseWait g = t at k ⊢
    refine ⟨⟨fun _ _ _ => ⟨k.held, k.directory, k.table, by rw [k.region, ho], k.keeps⟩, fun h => ?_, fun _ h => ?_,
      k.builder, k.granted, k.closing, k.deferred⟩, k.lastServed, by rw [k.region], k.log, k.keeps.part .device rfl,
      k.keeps.part .dport rfl, k.keeps.part .params rfl⟩
    · rw [ho, hp] at h
      simp [hn] at h
    · rw [hp] at h
      cases h
  · have k := s.refuseAbort_aborted g
    generalize s.refuseAbort g = t at k ⊢
    have d := k.discarded
    refine ⟨⟨fun _ h _ => ?_, fun h => ?_, fun _ _ => ⟨k.answered, k.gone, d.held, k.others, k.directory, k.idle, k.walk,
      k.keeps⟩, d.builder, d.granted, d.closing, d.deferred⟩, d.lastServed, k.saturated, d.log, k.keeps.part .device rfl,
      k.keeps.part .dport rfl, k.keeps.part .params rfl⟩
    · rw [hp] at h
      cases h
    · rw [ho, hp] at h
      simp at h
  · have k := s.refuseFail_failed g
    generalize s.refuseFail g = t at k ⊢
    have d := k.discarded
    have bare := k.bare g.region
    refine ⟨⟨fun ho h hn => ?_, fun _ => ⟨k.table, k.responses, d.held, (congrArg Region.txn bare :),
      (congrArg Region.records bare :), k.directory, k.keeps⟩, fun ho h => ?_, d.builder, d.granted, d.closing, d.deferred⟩,
      d.lastServed, (congrArg Region.saturated bare :), d.log, k.keeps.part .device rfl, k.keeps.part .dport rfl,
      k.keeps.part .params rfl⟩
    · exact absurd ((hf ho).2 h) hn
    · exact absurd h (hf ho).1

end Sys2Proof.Machine
end

section
/-! SUPPORT. The three events that ask admission for a group which is then refused: the retry of a HELD group, the taking of a
new one, and a verified anchor write with a DEFERRED one (R49, R68, R76). -/

namespace Sys2Proof.Machine

/-! ## A refusal seen from the event's start -/

/-- What an event has changed of `s` by the time admission is asked in `u` for a group of region `r`. -/
structure AskedFrom (s u : State) (r : RegionId) (also : List Part) : Prop where
  region : { u.region r with saturated := false, drain := [] } = { s.region r with saturated := false, drain := [] }
  others : OtherRegions r s u
  table : u.table = s.table
  responses : u.responses = s.responses
  queue : u.engine.queue = s.engine.queue
  builder : u.writer.builder = s.writer.builder
  granted : u.writer.granted = s.writer.granted
  closing : u.writer.closing = s.writer.closing
  tail : u.log.volatileTail = s.log.volatileTail
  keeps : Keeps ([.writer, .log] ++ also) s u

theorem GroupRefused.asked {s u t : State} {r : RegionId} {grp : Group} {directory : List DirEntry} {also : List Part}
    (h : GroupRefused u t r grp directory []) (a : AskedFrom s u r also) : GroupRefused s t r grp directory also := by
  have txn : (u.region r).txn = (s.region r).txn := (congrArg Region.txn a.region :)
  have live : (u.region r).live = (s.region r).live := (congrArg Region.live a.region :)
  have records : (u.region r).records = (s.region r).records := (congrArg Region.records a.region :)
  have firstIndex : (u.region r).firstIndex = (s.region r).firstIndex := (congrArg Region.firstIndex a.region :)
  have pinned : Pinned u r ↔ Pinned s r := by rw [Pinned, Pinned, records, firstIndex, a.tail]
  have busy := State.hasBusyGroup_congr a.builder a.granted r
  have keeps {c : List Part} (hw : .writer ∈ c) (hl : .log ∈ c) (k : Keeps (c ++ []) u t) : Keeps (c ++ also) s t := by
    refine (a.keeps.mono ?_).trans (k.mono ?_)
    · exact List.append_subset.mpr ⟨List.subset_append_of_subset_left _ (by simp [hw, hl]), List.subset_append_right _ _⟩
    · exact List.append_subset.mpr ⟨List.subset_append_left _ _, List.nil_subset _⟩
  refine ⟨fun h1 h2 h3 => ?_, fun h1 => ?_, fun h1 h2 => ?_, ?_⟩
  · obtain ⟨held, dir, table, opened, k⟩ := h.waits (txn.trans h1) (by rw [live]; exact h2) fun j => h3 (pinned.mp j)
    rw [a.table] at table
    exact ⟨held, dir, table, opened, keeps (by simp) (by simp) k⟩
  · obtain ⟨table, responses, held, txn', records', dir, k⟩ := h.fails (by rw [txn, live, pinned]; exact h1)
    rw [a.table] at table responses
    rw [a.responses] at responses
    exact ⟨table, responses, held, txn'.trans txn, records'.trans records, dir, keeps (by simp) (by simp) k⟩
  · obtain ⟨answered, gone, held, others, dir, idle, walk, k⟩ := h.aborts (txn.trans h1) (by rw [live]; exact h2)
    rw [a.table] at answered
    rw [records, busy, a.queue] at idle walk
    exact ⟨answered, gone, held, a.others.trans others, dir, idle, walk, keeps (by simp) (by simp) k⟩
  · obtain ⟨builder, granted, closing, deferred⟩ := h.writer
    exact ⟨builder.trans a.builder, granted.trans a.granted, closing.trans a.closing, deferred⟩

/-- A group asked for with no anchor that could reclaim space is admitted or refused (R49). -/
theorem State.askAdmission_refused {s : State} {g : Group}
    (h : s.log.admits (decide ((s.region g.region).records = 0)) g.lines.length = false) (ha : s.log.anchor = none)
    (ht : s.log.volatileTail = s.log.durableTail) : s.askAdmission g = s.refuse g := by
  unfold State.askAdmission
  rw [h, ha, ht]
  simp

/-! ## The idle builder's choice (R66) -/

theorem State.chooseWork_serves {s : State} {r : RegionId} (hg : s.writer.granted = none) (hc : s.writer.closing = [])
    (hd : s.writer.deferred = none) (hr : s.serveOrder.find? s.eligible = some r) : s.chooseWork = s.serve r := by
  unfold State.chooseWork
  rw [hg]
  dsimp only
  rw [hc]
  dsimp only
  rw [hd, hr]
  rfl

theorem exec_chooseNextWork {s : State} (hi : s.inReset = false) (hd : s.device = .run) (hb : s.writer.builder = none) :
    exec .chooseNextWork s = .next s.chooseWork.followOn := by
  have ready : (s.working && s.writer.builder.isNone) = true := by simp [State.working, hd, hb]
  exact congrArg Host.Outcome.next ((State.unlessReset_acts hi _).trans (if_pos ready))

/-- Region `r` is the last served (R66). -/
def State.served (s : State) (r : RegionId) : State := s.updWriter fun w => { w with lastServed := r }

/-! ## A HELD group retried (R76) -/

/-- The HELD group of a region is retried: it is no more retry-due. -/
def State.retried (s : State) (r : RegionId) (h : HeldGroup) : State :=
  (s.served r).updWriter fun w => { w with held := w.held.set r.val (some { h with retryDue := false }) }

theorem State.serve_held {s : State} {r : RegionId} {h : HeldGroup} (hh : s.writer.held.get r = some h) :
    s.serve r = (s.retried r h).askAdmission h.group := by
  have held : (s.served r).writer.held.get r = some h := hh
  unfold State.served at held
  unfold State.serve
  dsimp only
  rw [held]
  rfl

theorem State.retried_asked (s : State) (r : RegionId) (h : HeldGroup) : AskedFrom s (s.retried r h) r [] :=
  ⟨rfl, fun _ _ => rfl, rfl, rfl, rfl, rfl, rfl, rfl, rfl,
    ((Keeps.updWriter s _).mono (by decide)).trans ((Keeps.updWriter _ _).mono (by decide))⟩

/-! ## A new group (R61, R68) -/

/-- The lines with a directory entry are the first ones, as many as entries are free (R61). -/
theorem groupLines_tracked_eq (n : Nat) (es : List Entry) :
    ((groupLines n es).filter GroupLine.inDirectory).map GroupLine.addr = (es.map fun e => lineOf e.addr).take n := by
  induction es generalizing n with
  | nil => cases n <;> simp [groupLines]
  | cons e es ih => cases n <;> simp [groupLines, ih]

theorem State.serve_new {s : State} {r : RegionId} (hh : s.writer.held.get r = none) :
    s.serve r = ((s.served r).insertGroup (s.newGroup r)).askAdmission (s.newGroup r) := by
  have held : (s.served r).writer.held.get r = none := hh
  unfold State.served at held
  unfold State.serve
  dsimp only
  rw [held]
  rfl

/-- The directory with a group's PENDING entries. -/
def State.withPending (s : State) (g : Group) : State :=
  { s with directory := s.directory ++ g.tracked.map fun a => ⟨g.region, a, false⟩ }

theorem Keeps.withPending (s : State) (g : Group) : Keeps [.regions, .directory] s (s.withPending g) :=
  ⟨fun p hp => by cases p <;> simp_all [Part.same, State.withPending, State.region], rfl, rfl, rfl⟩

/-- A taken group's PENDING entries, and SATURATED where a line is left over (R61). -/
structure GroupInserted (s t : State) (g : Group) : Prop where
  directory : t.directory = s.directory ++ g.tracked.map fun a => ⟨g.region, a, false⟩
  saturated : (t.region g.region).saturated = ((s.region g.region).saturated || !g.lines.all GroupLine.inDirectory)
  region : { t.region g.region with saturated := false } = { s.region g.region with saturated := false }
  others : OtherRegions g.region s t
  log : t.log = s.log
  writer : t.writer = s.writer
  keeps : Keeps [.regions, .directory] s t

theorem State.insertGroup_inserted (s : State) (g : Group) : GroupInserted s (s.insertGroup g) g := by
  have insert := Keeps.withPending s g
  have e : s.insertGroup g = if g.lines.all GroupLine.inDirectory then s.withPending g
      else (s.withPending g).updRegion g.region fun x => { x with saturated := true } := rfl
  rw [e]
  split_ifs with h
  · exact ⟨rfl, by rw [h]; simp [State.withPending, State.region], rfl, fun _ _ => rfl, rfl, rfl, insert⟩
  · have region : ((s.withPending g).updRegion g.region fun x => { x with saturated := true }).region g.region =
        { s.region g.region with saturated := true } := State.region_updRegion_self (s.withPending g) g.region _
    refine ⟨rfl, ?_, ?_, OtherRegions.updRegion (s.withPending g) g.region _, rfl, rfl,
      insert.trans ((Keeps.updRegion (s.withPending g) g.region _ rfl).mono (by decide))⟩
    · rw [region]
      simp [h]
    · rw [region]

/-- The new group of a region: its members and their lines in acceptance order (R68). -/
theorem State.newGroup_lines (s : State) (r : RegionId) :
    (s.newGroup r).lines.map GroupLine.addr = ((s.untaken r).take 8).map fun e => lineOf e.addr :=
  groupLines_addr _ _

theorem State.newGroup_tracked (s : State) (r : RegionId) :
    (s.newGroup r).tracked = (((s.untaken r).take 8).map fun e => lineOf e.addr).take (256 - s.directory.length) :=
  groupLines_tracked_eq _ _

theorem State.newGroup_all (s : State) (r : RegionId) : (s.newGroup r).lines.all GroupLine.inDirectory =
    decide (((s.untaken r).take 8).length ≤ 256 - s.directory.length) := groupLines_all _ _

/-- The state in which admission is asked for a region's new group. -/
def State.taken (s : State) (r : RegionId) : State := (s.served r).insertGroup (s.newGroup r)

theorem State.taken_asked (s : State) (r : RegionId) : AskedFrom s (s.taken r) r [.regions, .directory] := by
  have k := (s.served r).insertGroup_inserted (s.newGroup r)
  have serve : Keeps [.writer, .log, .regions, .directory] s (s.served r) := (Keeps.updWriter s _).mono (by decide)
  unfold State.taken
  generalize (s.served r).insertGroup (s.newGroup r) = u at k ⊢
  exact ⟨(congrArg (fun x : Region => { x with drain := [] }) k.region :), k.others, k.keeps.part .table rfl,
    k.keeps.part .responses rfl, k.keeps.queue rfl, (congrArg LogWriter.builder k.writer :),
    (congrArg LogWriter.granted k.writer :), (congrArg LogWriter.closing k.writer :), congrArg LogState.volatileTail k.log,
    serve.trans (k.keeps.mono (by decide))⟩

end Sys2Proof.Machine
end

section
/-! SUPPORT. A DEFERRED group refused when its anchor write is verified (R49, R52), and a refused group in each of the three
events. -/

namespace Sys2Proof.Machine

/-! ## The anchor write verified (R52) -/

/-- The last good read-back of an anchor write, on tag `g`, up to the test of the deferred admission. -/
def State.anchorIn (s : State) (g : DownTag) (a : AnchorWrite) : State :=
  (((s.setTag g .free).adoptAnchor a).noteFree s.log.free).spaceEvent

theorem State.respond_verified {s : State} {g : DownTag} {d : Line} {a : AnchorWrite} (hi : s.inReset = false)
    (h : VerifiesAnchor s g d a) :
    exec (.downstreamResponse g true d) s =
      .next ((((s.anchorIn g a).reevaluate).afterAnchor).anchorSequel a.purpose).followOn := by
  obtain ⟨ha, hr, hl, hf, addr, cls, op, timer, at_, ht, hm⟩ := h
  refine congrArg Host.Outcome.next ((State.unlessReset_acts hi _).trans ?_)
  have verified : (s.setTag g .free).anchorOutcome addr (some d) = (s.setTag g .free).anchorVerified a := by
    have anchor : (s.setTag g .free).log.anchor = some a := ha
    unfold State.anchorOutcome
    rw [anchor]
    dsimp only
    rw [VerifiedUnit.take_durable hr hl hf hm]
  rw [State.respond_outstanding ht]
  show ((s.setTag g .free).anchorOutcome addr (some d)).followOn = _
  rw [verified]
  rfl

/-- Where a verified anchor write leaves the part when the deferred admission is tested. -/
structure AnchorIn (s v : State) (g : DownTag) (a : AnchorWrite) : Prop where
  asked : ∀ r, AskedFrom s v r [.dport, .notices]
  tag : v.tag g = .free
  log : ∃ below, v.log = { (s.anchored a).log with below := below }
  deferred : v.writer.deferred = s.writer.deferred
  device : v.device = s.device
  records : ∀ r, (v.region r).records = (s.region r).records

theorem State.anchorIn_anchorIn (s : State) (g : DownTag) (a : AnchorWrite) : AnchorIn s (s.anchorIn g a) g a := by
  unfold State.anchorIn
  obtain ⟨below, notices, e⟩ := ((s.setTag g .free).adoptAnchor a).noteFree_eq s.log.free
  have level : Keeps [.log, .notices] ((s.setTag g .free).adoptAnchor a)
      (((s.setTag g .free).adoptAnchor a).noteFree s.log.free) := by
    rw [e]
    exact ⟨fun p hp => by cases p <;> simp_all [Part.same, State.region], rfl, rfl, rfl⟩
  have adopt : Keeps [.log] (s.setTag g .free) ((s.setTag g .free).adoptAnchor a) := Keeps.updLog _ rfl
  have keeps := ((Keeps.updDport s _).mono (by decide)).trans ((adopt.mono (by decide)).trans
    ((level.mono (by decide)).trans
      ((Keeps.spaceEvent _).mono (by decide : [Part.writer] ⊆ [.writer, .log, .dport, .notices]))))
  rw [e, State.spaceEvent_eq] at keeps ⊢
  exact ⟨fun r => ⟨rfl, fun _ _ => rfl, rfl, rfl, rfl, rfl, rfl, rfl, rfl, keeps⟩,
    (s.tag_setTag g g .free).trans (if_pos rfl), ⟨below, rfl⟩, rfl, rfl, fun _ => rfl⟩

theorem State.reevaluate_deferred {s : State} {g : Group} (h : s.writer.deferred = some g) :
    s.reevaluate = s.askAdmission g := by
  unfold State.reevaluate
  rw [h]

theorem AnchorIn.refused {s v : State} {g : DownTag} {a : AnchorWrite} {grp : Group} (h : AnchorIn s v g a)
    (hd : s.writer.deferred = some grp)
    (ha : (s.anchored a).log.admits (decide ((s.region grp.region).records = 0)) grp.lines.length = false)
    (ht : s.log.volatileTail = a.tail) : v.reevaluate = v.refuse grp := by
  obtain ⟨below, log⟩ := h.log
  rw [State.reevaluate_deferred (h.deferred.trans hd)]
  refine State.askAdmission_refused ?_ ?_ ?_ <;> rw [log]
  · rw [h.records]
    exact ha
  · rfl
  · exact ht

/-! ## The stride condition after the verification (R53) -/

/-- An anchor write no more wanted. -/
def State.unwanted (s : State) : State := s.updLog fun l => { l with anchorWanted := false }

theorem ringDistance_self (n i : Nat) : ringDistance n i i = 0 := by
  rw [ringDistance, Nat.add_sub_cancel_left, Nat.mod_self]

/-- In RUN, with both tails the same, no further anchor write starts. -/
theorem State.afterAnchor_still {s : State} (hd : s.device = .run) (ht : s.log.volatileTail = s.log.durableTail) :
    s.afterAnchor = s ∨ s.afterAnchor = s.unwanted := by
  have still : s.unwanted.strideDue = false := by
    have distance : ringDistance s.log.ring s.log.durableTail s.log.volatileTail = 0 := by rw [ht, ringDistance_self]
    have tails : ringDistance s.unwanted.log.ring s.unwanted.log.durableTail s.unwanted.log.volatileTail = 0 := distance
    rw [State.strideDue, tails]
    rfl
  have stays : s.unwanted.strideTrigger = s.unwanted := by rw [State.strideTrigger, still]; rfl
  unfold State.afterAnchor
  rw [if_neg (by simp [hd])]
  split_ifs
  · exact .inr stays
  · exact .inl rfl

/-- A refusal does not look at whether an anchor write is wanted. -/
theorem GroupRefused.unwanted {s t : State} {r : RegionId} {grp : Group} {directory : List DirEntry} {also : List Part}
    (h : GroupRefused s t r grp directory also) : GroupRefused s t.unwanted r grp directory also := by
  have log : Keeps [.log] t t.unwanted := Keeps.updLog t rfl
  refine ⟨fun h1 h2 h3 => ?_, fun h1 => ?_, fun h1 h2 => ?_, h.writer⟩
  · obtain ⟨held, dir, table, opened, k⟩ := h.waits h1 h2 h3
    exact ⟨held, dir, table, opened, k.trans (log.mono (by simp))⟩
  · obtain ⟨table, responses, held, txn, records, dir, k⟩ := h.fails h1
    exact ⟨table, responses, held, txn, records, dir, k.trans (log.mono (by simp))⟩
  · obtain ⟨answered, gone, held, others, dir, idle, walk, k⟩ := h.aborts h1 h2
    exact ⟨answered, gone, held, others, dir, idle, walk, k.trans (log.mono (by simp))⟩

/-! ## The three events -/

theorem heldGroup_refused {r : RegionId} {h : HeldGroup} {s : State} (hi : s.inReset = false) (hd : s.device = .run)
    (hb : s.writer.builder = none) (hg : s.writer.granted = none) (hc : s.writer.closing = [])
    (hf : s.writer.deferred = none) (hs : s.serveOrder.find? s.eligible = some r) (hh : s.writer.held.get r = some h)
    (hr : h.group.region = r)
    (ha : s.log.admits (decide ((s.region r).records = 0)) h.group.lines.length = false) (hn : s.log.anchor = none)
    (ht : s.log.volatileTail = s.log.durableTail) : ∃ t : State, exec .chooseNextWork s = .next t.followOn ∧
      t.writer.lastServed = r ∧ GroupRefused s t r h.group s.directory [] := by
  subst hr
  have refuse : (s.retried h.group.region h).askAdmission h.group = (s.retried h.group.region h).refuse h.group :=
    State.askAdmission_refused ha hn ht
  obtain ⟨refused, leaves⟩ := (s.retried h.group.region h).refuse_refused h.group
  refine ⟨_, ?_, leaves.lastServed, refused.asked (s.retried_asked _ h)⟩
  rw [exec_chooseNextWork hi hd hb, State.chooseWork_serves hg hc hf hs, State.serve_held hh, refuse]

theorem newGroup_refused {r : RegionId} {s : State} (hi : s.inReset = false) (hd : s.device = .run)
    (hb : s.writer.builder = none) (hg : s.writer.granted = none) (hc : s.writer.closing = [])
    (hf : s.writer.deferred = none) (hs : s.serveOrder.find? s.eligible = some r) (hh : s.writer.held.get r = none)
    (ha : s.log.admits (decide ((s.region r).records = 0)) ((s.untaken r).take 8).length = false) (hn : s.log.anchor = none)
    (ht : s.log.volatileTail = s.log.durableTail) : ∃ t : State, exec .chooseNextWork s = .next t.followOn ∧
      t.writer.lastServed = r ∧
      (t.region r).saturated = ((s.region r).saturated || !(s.newGroup r).lines.all GroupLine.inDirectory) ∧
      GroupRefused s t r (s.newGroup r) (s.directory ++ (s.newGroup r).tracked.map fun a => ⟨r, a, false⟩)
        [.regions, .directory] := by
  have insert := (s.served r).insertGroup_inserted (s.newGroup r)
  have asked := s.taken_asked r
  have count : (s.newGroup r).lines.length = ((s.untaken r).take 8).length := by
    simpa using congrArg List.length (s.newGroup_lines r)
  have serve := State.serve_new hh
  change s.serve r = (s.taken r).askAdmission (s.newGroup r) at serve
  change GroupInserted (s.served r) (s.taken r) (s.newGroup r) at insert
  generalize s.taken r = u at insert asked serve
  have records : (u.region r).records = (s.region r).records := (congrArg Region.records asked.region :)
  have refuse : u.askAdmission (s.newGroup r) = u.refuse (s.newGroup r) := by
    have log : u.log = s.log := insert.log
    refine State.askAdmission_refused ?_ ?_ ?_ <;> rw [log]
    · rw [count]
      change s.log.admits (decide ((u.region r).records = 0)) _ = false
      rw [records]
      exact ha
    · exact hn
    · exact ht
  obtain ⟨refused, leaves⟩ := u.refuse_refused (s.newGroup r)
  rw [insert.directory] at refused
  refine ⟨_, ?_, leaves.lastServed.trans (congrArg LogWriter.lastServed insert.writer :),
    leaves.saturated.trans insert.saturated, refused.asked asked⟩
  rw [exec_chooseNextWork hi hd hb, State.chooseWork_serves hg hc hf hs, serve, refuse]

theorem deferredGroup_refused {g : DownTag} {d : Line} {a : AnchorWrite} {grp : Group} {s : State} (hi : s.inReset = false)
    (hd : s.device = .run) (hv : VerifiesAnchor s g d a) (hp : a.purpose = .reclaim) (hg : s.writer.deferred = some grp)
    (ha : (s.anchored a).log.admits (decide ((s.region grp.region).records = 0)) grp.lines.length = false)
    (ht : s.log.volatileTail = a.tail) : ∃ t : State, exec (.downstreamResponse g true d) s = .next t.followOn ∧
      t.tag g = .free ∧ t.log.durableTail = a.tail ∧ GroupRefused s t grp.region grp s.directory [.dport, .notices] := by
  have verified := State.respond_verified hi hv
  have k := s.anchorIn_anchorIn g a
  generalize s.anchorIn g a = v at verified k
  rw [hp, k.refused hg ha ht] at verified
  obtain ⟨below, log⟩ := k.log
  obtain ⟨refused, leaves⟩ := v.refuse_refused grp
  have asked := k.asked grp.region
  have directory : v.directory = s.directory := asked.keeps.part .directory rfl
  rw [directory] at refused
  replace refused := refused.asked asked
  have tag := (State.tag_congr leaves.dport g).trans k.tag
  have device := leaves.device.trans (k.device.trans hd)
  have tail := leaves.log
  generalize v.refuse grp = t at verified refused tag device tail
  rw [log] at tail
  have durable : t.log.durableTail = a.tail := (congrArg LogState.durableTail tail :)
  have volatile : t.log.volatileTail = a.tail := (congrArg LogState.volatileTail tail :).trans ht
  obtain e | e := State.afterAnchor_still device (volatile.trans durable.symm) <;> rw [e] at verified
  · exact ⟨t, verified, tag, durable, refused⟩
  · exact ⟨t.unwanted, verified, tag, durable, refused.unwanted⟩

/-- Settles O42: in each of the three events admission is asked, refused, and the policy followed. -/
theorem refusedGroupFollowsTheSpacePolicy : Obligations.RefusedGroupFollowsTheSpacePolicy := by
  refine ⟨fun r h s hi hd hb hg hc hf hs hh hr ha hn ht => heldGroup_refused hi hd hb hg hc hf hs hh hr ha hn ht, ?_,
    fun g d a grp s hi hd hv hp hg ha ht => deferredGroup_refused hi hd hv hp hg ha ht⟩
  intro r s hi hd hb hg hc hf _ hs hh members lines ha hn ht
  obtain ⟨t, he, last, saturated, refused⟩ := newGroup_refused hi hd hb hg hc hf hs hh ha hn ht
  refine ⟨t, s.newGroup r, he, last, rfl, rfl, rfl, s.newGroup_lines r, s.newGroup_tracked r, ?_, refused⟩
  have count : lines.length = members.length := List.length_map _
  rw [saturated, s.newGroup_all, count, ← decide_not]
  simp only [not_le, members]

end Sys2Proof.Machine
end

section
/-! SUPPORT. The free space after a granted admission, the checks of FORMAT, and the closing record that the idle builder
takes first (R40, R41, R46, R47, R55, R74). -/

namespace Sys2Proof.Machine

/-! ## Free space after a placement (R40, R46) -/

/-- The distance forward between two indices of a ring, without the remainder (R32). -/
theorem ringDistance_of_lt {n a b : Nat} (ha : a < n) (hb : b < n) :
    ringDistance n a b = if a ≤ b then b - a else b + n - a := by
  unfold ringDistance
  split_ifs with h
  · rw [show b + n - a = b - a + n by omega, Nat.add_mod_right, Nat.mod_eq_of_lt (by omega)]
  · exact Nat.mod_eq_of_lt (by omega)

theorem LogState.free_of_lt {l : LogState} (head : l.head < l.ring) (tail : l.durableTail < l.ring) :
    l.free = l.ring - if l.durableTail ≤ l.head then l.head - l.durableTail else l.head + l.ring - l.durableTail := by
  unfold LogState.free
  rw [if_neg (by omega), ringDistance_of_lt tail head]

/-- A placement that leaves a block free takes its record and the wrap waste from the free space. -/
theorem LogState.free_headAfter {l : LogState} {size : Nat} (head : l.head < l.ring) (tail : l.durableTail < l.ring)
    (fits : size + l.waste size < l.free) :
    l.headAfter size < l.ring ∧ ({ l with head := l.headAfter size } : LogState).free = l.free - size - l.waste size := by
  have free := LogState.free_of_lt head tail
  have inside : l.headAfter size < l.ring := by
    unfold LogState.headAfter
    unfold LogState.waste at fits
    split_ifs at fits ⊢ <;> omega
  have after : ({ l with head := l.headAfter size } : LogState).free = l.ring -
      if l.durableTail ≤ l.headAfter size then l.headAfter size - l.durableTail
      else l.headAfter size + l.ring - l.durableTail := LogState.free_of_lt inside tail
  refine ⟨inside, ?_⟩
  rw [after]
  unfold LogState.headAfter at inside ⊢
  unfold LogState.waste at fits ⊢
  split_ifs at * <;> omega

/-- Settles O51: the test of R47 asks for the record, the wrap waste and the reserve. -/
theorem admissionKeepsTheReserve : Obligations.AdmissionKeepsTheReserve := by
  intro l first lines head tail admitted
  have test : 2 + lines + l.waste (2 + lines) + (2 * l.unresolvedWith first + 1 + l.endCorrection first lines) ≤ l.free :=
    of_decide_eq_true admitted
  obtain ⟨inside, free⟩ := LogState.free_headAfter (size := 2 + lines) head tail (by omega)
  have reserve : 2 * l.unresolvedWith first + 1 ≤ l.free - (2 + lines) - l.waste (2 + lines) := by omega
  refine ⟨inside, free ▸ reserve, free.trans (congrArg (l.free - (2 + lines) - ·) ?_)⟩
  unfold LogState.waste
  split_ifs <;> omega

/-! ## FORMAT's checks (R55) -/

theorem State.someTxnRuns_iff (s : State) :
    s.someTxnRuns = true ↔ ∃ r, (s.region r).txn ≠ .idle ∧ (s.region r).txn ≠ .faulted := by
  simp [State.someTxnRuns, mem_allRegions]

/-- A new log area overlaps where it runs into the anchor blocks or shares an address with an enabled window. -/
theorem State.areaMeets_iff {s : State} (hi : InRange s) (g : Geometry) (size : 0 < g.size) :
    s.areaMeets g.base g.size = true ↔ s.memorySize - 64 < g.base + g.size ∨
      ∃ r addr, (s.region r).live.enable = true ∧ (s.region r).live.holds addr = true ∧ g.holds addr = true := by
  have window (r : RegionId) : spansMeet g.base g.size (s.region r).live.base (32 * (s.region r).live.size) = true ↔
      ∃ addr, (s.region r).live.holds addr = true ∧ g.holds addr = true := by
    have sized := (hi.live r).sized
    rw [spansMeet_iff size (by omega)]
    simp only [Descriptor.holds, Geometry.holds, Bool.and_eq_true, decide_eq_true_eq]
    exact exists_congr fun _ => and_comm
  simp only [State.areaMeets, Bool.or_eq_true, decide_eq_true_eq, List.any_eq_true, mem_allRegions, true_and,
    Bool.and_eq_true, window, exists_and_left]

/-- FORMAT's pass over the regions, whatever their states: it leaves the device state and the log. -/
theorem Keeps.formatRegions (s : State) (g : Geometry) : Keeps formatParts (s.formatStart g).setLevel (s.takeFormat g) := by
  refine Keeps.foldl (f := State.formatRegion) (fun s r => ?_) allRegions (s.formatStart g).setLevel
  have number : Keeps formatParts s (s.updRegion r fun x => { x with number := 1 }) :=
    (Keeps.updRegion s r _ rfl).mono (by decide)
  unfold State.formatRegion
  dsimp only
  split_ifs
  · exact number.trans (State.returnToIdle_effect _ r _).keeps
  · exact number

/-- Settles O25: `formatReply` is a chain of tests, each of which reads as the statement's condition. -/
theorem formatChecksInOrder : Obligations.FormatChecksInOrder := by
  intro base units s hi hl hs g placed running meets
  have runs : running ↔ (s.device ≠ .logFault ∧ s.someTxnRuns = true) := by rw [s.someTxnRuns_iff]
  have overlap (h : placed) : s.areaMeets g.base g.size = true ↔ meets :=
    State.areaMeets_iff hi g (show 0 < 4096 * units.toNat by have := h.2.1; omega)
  have answer {result : ResultCode} {t : State} (ho : formatReply base.toNat units.toNat s = ⟨result, [], t⟩) :
      Takes (.format base units) s result [] t := takes_gated hl hs rfl ho
  have reply : formatReply base.toNat units.toNat s =
      if ¬placed then s.reply .badArg
      else if s.device ≠ .logFault ∧ s.someTxnRuns = true then s.reply .state
      else if s.log.anchor.isSome then s.reply .busy
      else if s.areaMeets g.base g.size then s.reply .overlap
      else done (s.takeFormat g).followOn := rfl
  rw [reply] at answer
  refine ⟨fun h => answer (if_pos h), fun h k => answer ?_, fun h k a => answer ?_, fun h k a m => answer ?_, fun h k a m => ?_⟩
  · rw [if_neg (not_not.mpr h), if_pos (runs.mp k)]
    rfl
  · rw [if_neg (not_not.mpr h), if_neg (mt runs.mpr k), if_pos (Option.isSome_iff_ne_none.mpr a)]
    rfl
  · rw [if_neg (not_not.mpr h), if_neg (mt runs.mpr k), a, if_neg (by simp), if_pos ((overlap h).mpr m)]
    rfl
  · have pass := Keeps.formatRegions s g
    have taken : Takes (.format base units) s .ok [] (s.takeFormat g).followOn := by
      refine answer ?_
      rw [if_neg (not_not.mpr h), if_neg (mt runs.mpr k), a, if_neg (by simp), if_neg (mt (overlap h).mp m)]
      rfl
    generalize s.takeFormat g = t at pass taken
    exact ⟨t, taken, pass.part .device rfl, (congrArg LogState.geometry (pass.logBare rfl) :)⟩

/-! ## The head closing request (R41, R66, R74) -/

/-- The requests a build begins with: the write of its WRAP marker when placement calls for one, and otherwise those of its
record (R72). -/
def Build.firstWrites (b : Build) (s : State) : List DownRequest :=
  match b.place.marker with
  | some (i, seq) => [writeBlock .logWriter (s.blockAddr i) (wrapBlock seq b.record.generation)]
  | none => (b.blocks s).map fun x : Nat × Line => writeBlock .logWriter x.1 x.2

theorem State.startWriting_started (s : State) (b : Build) : ∃ stage,
    s.startWriting b =
      (s.updWriter fun w => { w with builder := some { b with stage := stage } }).handLog (b.firstWrites s) := by
  unfold State.startWriting Build.firstWrites
  cases b.place.marker with
  | none => exact ⟨_, rfl⟩
  | some m => exact ⟨_, rfl⟩

/-- A closing record's blocks are its two header blocks (R35). -/
theorem Build.firstWrites_closing {b : Build} {s : State} {g : Geometry} (hb : b.group = none)
    (hg : s.log.geometry = some g) :
    b.firstWrites s = match b.place.marker with
      | some (i, seq) => [writeBlock .logWriter (g.base + 32 * i) (wrapBlock seq b.record.generation)]
      | none => (b.record.headerBlocks []).mapIdx fun i c =>
          writeBlock .logWriter (g.base + 32 * (b.place.index + i)) c := by
  have addr (i : Nat) : s.blockAddr i = g.base + 32 * i := by rw [State.blockAddr, hg]
  have data : b.data = [] := by rw [Build.data, hb]; rfl
  unfold Build.firstWrites Build.blocks
  simp only [data, List.append_nil, addr]
  cases b.place.marker with
  | some m => rfl
  | none => exact List.ext_getElem (by simp) (by simp)

/-- The idle builder takes the head closing request where no grant is held (R66, R69). -/
theorem State.chooseWork_closing {s : State} {c : ClosingRequest} {rest : List ClosingRequest}
    (hg : s.writer.granted = none) (hc : s.writer.closing = c :: rest) : s.chooseWork = s.takeClosing c := by
  unfold State.chooseWork
  rw [hg, hc]

/-- A placement moves the head and the next record sequence, and tests the space level (R40, R54). -/
theorem State.placeAtHead_eq (s : State) (size : Nat) : ∃ below notices, s.placeAtHead size =
    { s with
      log := { s.log with head := s.log.headAfter size, nextSeq := (s.log.placement size).2 + 1, below := below }
      notices := notices } := State.noteFree_eq _ _

/-- A test of the space level changes that level and the notices only (R54). -/
theorem Keeps.noteFree (s : State) (old : Nat) : Keeps [.log, .notices] s (s.noteFree old) := by
  obtain ⟨below, notices, e⟩ := s.noteFree_eq old
  rw [e]
  exact ⟨fun p hp => by cases p <;> simp_all [Part.same, State.region], rfl, rfl, rfl⟩

theorem Keeps.placeAtHead (s : State) (size : Nat) : Keeps [.log, .notices] s (s.placeAtHead size) :=
  ((Keeps.updLog s (f := fun l => { l with head := l.headAfter size, nextSeq := (s.log.placement size).2 + 1 }) rfl).mono
    (by decide)).trans (.noteFree _ _)

theorem Keeps.startWriting (s : State) (b : Build) : Keeps [.writer, .dport] s (s.startWriting b) := by
  obtain ⟨stage, e⟩ := s.startWriting_started b
  rw [e]
  exact ((Keeps.updWriter s _).mono (by decide)).trans ((Keeps.updDport _ _).mono (by decide))

/-- Settles O40: the request's record is placed without a test, and its first writes are handed. -/
theorem closingRequestIsPlacedAndWritten : Obligations.ClosingRequestIsPlacedAndWritten := by
  intro c rest g s hi hd hb granted hc hg head two
  have acts : exec .chooseNextWork s = .next (s.takeClosing c).followOn := by
    have ready : (s.working && s.writer.builder.isNone) = true := by
      rw [(s.working_iff).mpr hd, hb]
      rfl
    rw [← State.chooseWork_closing granted hc]
    exact congrArg Host.Outcome.next ((State.unlessReset_acts hi _).trans (if_pos ready))
  let record : LogRecord := ⟨c.kind, c.region, false, c.recovery, (s.log.placement 2).2, c.number, none, [],
    s.log.generation, c.firstIndex⟩
  let b : Build := ⟨record, (s.log.placement 2).1, none, .reading⟩
  let taken := s.updWriter fun w => { w with closing := w.closing.tail }
  have keeps : Keeps [.log, .writer, .dport, .notices] s ((taken.placeAtHead 2).startWriting b) :=
    ((Keeps.updWriter s _).mono (by decide)).trans
      (((Keeps.placeAtHead taken 2).mono (by decide)).trans ((Keeps.startWriting _ b).mono (by decide)))
  obtain ⟨below, notices, placed⟩ := taken.placeAtHead_eq 2
  obtain ⟨stage, started⟩ := (taken.placeAtHead 2).startWriting_started b
  have writes := Build.firstWrites_closing (b := b) (s := taken.placeAtHead 2) rfl (by rw [placed]; exact hg)
  have written : s.takeClosing c = (taken.placeAtHead 2).startWriting b := rfl
  refine ⟨s.takeClosing c, { b with stage := stage }, acts, ?_⟩
  rw [started, writes, placed] at written keeps
  rw [written]
  refine ⟨?_, LogState.placement_at s.log g hg head 2, rfl, rfl, rfl, rfl, keeps⟩
  simp [taken, hc]

end Sys2Proof.Machine
end

section
/-! SUPPORT. The contents of the log as built and as read (R34 to R37, R51, R193 to R195): a field of a packed block is the value
packed there, and a block sealed with its CRC passes the CRC test. -/

namespace Sys2Proof.Machine

/-! ## Fields of packed blocks (R193) -/

/-- The number of bytes that packed fields take. -/
def fieldBytes : List (Nat × Nat) → Nat
  | [] => 0
  | (len, _) :: rest => len + fieldBytes rest

theorem packFields_append (l m : List (Nat × Nat)) :
    packFields (l ++ m) = packFields l + 2 ^ (8 * fieldBytes l) * packFields m := by
  induction l with
  | nil => simp [packFields, fieldBytes]
  | cons x l ih =>
    obtain ⟨len, v⟩ := x
    simp only [List.cons_append, packFields, fieldBytes, ih, Nat.mul_add, pow_add]
    ring

theorem packFields_lt (l : List (Nat × Nat)) : packFields l < 2 ^ (8 * fieldBytes l) := by
  induction l with
  | nil => exact Nat.one_pos
  | cons x l ih =>
    obtain ⟨len, v⟩ := x
    have low : v % 2 ^ (8 * len) < 2 ^ (8 * len) := Nat.mod_lt _ (by positivity)
    have high : 2 ^ (8 * len) * (packFields l + 1) ≤ 2 ^ (8 * len) * 2 ^ (8 * fieldBytes l) := Nat.mul_le_mul_left _ ih
    rw [fieldBytes, Nat.mul_add 8, pow_add, packFields]
    rw [Nat.mul_add] at high
    omega

/-- The bytes before a field are passed over together. -/
theorem fieldAt_append_right (l m : List (Nat × Nat)) (off n : Nat) :
    fieldAt (packFields (l ++ m)) (fieldBytes l + off) n = fieldAt (packFields m) off n := by
  unfold fieldAt
  rw [packFields_append, Nat.mul_add 8, pow_add, ← Nat.div_div_eq_div_mul, Nat.add_mul_div_left _ _ (by positivity),
    Nat.div_eq_of_lt (packFields_lt l), Nat.zero_add]

/-- The fields at the front, read together, are those packed. -/
theorem fieldAt_append_left (l m : List (Nat × Nat)) :
    fieldAt (packFields (l ++ m)) 0 (fieldBytes l) = packFields l := by
  unfold fieldAt
  rw [packFields_append, Nat.mul_zero, pow_zero, Nat.div_one, Nat.add_mul_mod_self_left, Nat.mod_eq_of_lt (packFields_lt l)]

theorem fieldAt_first (len v : Nat) (rest : List (Nat × Nat)) :
    fieldAt (packFields ((len, v) :: rest)) 0 len = v % 2 ^ (8 * len) := by
  unfold fieldAt
  rw [packFields, Nat.mul_zero, pow_zero, Nat.div_one, Nat.add_mul_mod_self_left, Nat.mod_mod]

theorem fieldAt_later {len off : Nat} (h : len ≤ off) (v : Nat) (rest : List (Nat × Nat)) (n : Nat) :
    fieldAt (packFields ((len, v) :: rest)) off n = fieldAt (packFields rest) (off - len) n := by
  have k := fieldAt_append_right [(len, v)] rest (off - len) n
  rwa [show fieldBytes [(len, v)] + (off - len) = off by simp only [fieldBytes]; omega] at k

/-- Fields of four bytes, read one after another. -/
theorem fieldAt_words (ws : List Nat) (rest : List (Nat × Nat)) :
    ((List.range ws.length).map fun i => fieldAt (packFields (ws.map (fun w => (4, w)) ++ rest)) (4 * i) 4) =
      ws.map (· % 2 ^ 32) := by
  induction ws with
  | nil => rfl
  | cons w ws ih =>
    have next (i : Nat) : fieldAt (packFields ((4, w) :: (ws.map (fun w => (4, w)) ++ rest))) (4 * (i + 1)) 4 =
        fieldAt (packFields (ws.map (fun w => (4, w)) ++ rest)) (4 * i) 4 := fieldAt_later (by omega) _ _ _
    rw [List.length_cons, List.range_succ_eq_map, List.map_cons, List.map_map, List.map_cons (f := (· % 2 ^ 32)), ← ih]
    exact congrArg₂ _ (fieldAt_first 4 w _) (List.map_congr_left fun i _ => next i)

theorem ofNat_toNat_mod (x : Word32) : BitVec.ofNat 32 (x.toNat % 2 ^ 32) = x := by
  rw [Nat.mod_eq_of_lt x.isLt, BitVec.ofNat_toNat, BitVec.setWidth_eq]

/-! ## Sealed blocks (R37) -/

/-- Fields with the CRC over their bytes after them. -/
def sealFields (fs : List (Nat × Nat)) : List (Nat × Nat) := fs ++ [(4, (crc32 (fieldBytes fs) (packFields fs)).toNat)]

theorem packFields_seal (fs : List (Nat × Nat)) :
    packFields (sealFields fs) = packFields fs + 2 ^ (8 * fieldBytes fs) * (crc32 (fieldBytes fs) (packFields fs)).toNat := by
  rw [sealFields, packFields_append]
  simp only [packFields, Nat.mul_zero, Nat.add_zero]
  rw [Nat.mod_eq_of_lt (BitVec.isLt _)]

/-- A sealed block passes the CRC test. -/
theorem crc_seal (fs : List (Nat × Nat)) :
    crc32 (fieldBytes fs) (fieldAt (packFields (sealFields fs)) 0 (fieldBytes fs)) =
      BitVec.ofNat 32 (fieldAt (packFields (sealFields fs)) (fieldBytes fs) 4) := by
  have crc : fieldAt (packFields (sealFields fs)) (fieldBytes fs) 4 =
      (crc32 (fieldBytes fs) (packFields fs)).toNat % 2 ^ 32 :=
    (fieldAt_append_right fs _ 0 4).trans (fieldAt_first 4 _ [])
  rw [crc, ofNat_toNat_mod, sealFields, fieldAt_append_left]

theorem fieldBytes_append (l m : List (Nat × Nat)) : fieldBytes (l ++ m) = fieldBytes l + fieldBytes m := by
  induction l with
  | nil => simp [fieldBytes]
  | cons x l ih => simp only [List.cons_append, fieldBytes, ih, Nat.add_assoc]

theorem packFields_seal_lt (fs : List (Nat × Nat)) : packFields (sealFields fs) < 2 ^ (8 * (fieldBytes fs + 4)) := by
  have k := packFields_lt (sealFields fs)
  rwa [sealFields, fieldBytes_append] at k

/-- A block of sealed fields of 28 bytes. -/
theorem toNat_seal_block {fs : List (Nat × Nat)} (h : fieldBytes fs = 28) :
    (BitVec.ofNat 256 (packFields fs + 2 ^ 224 * (crc32 28 (packFields fs)).toNat)).toNat = packFields (sealFields fs) := by
  have k := packFields_seal fs
  have lt := packFields_seal_lt fs
  rw [h] at k lt
  rw [BitVec.toNat_ofNat, Nat.mod_eq_of_lt (k ▸ lt)]
  exact k.symm

/-! ## Record headers (Table 11-10) -/

/-- The two halves of a number of two blocks, read together. -/
theorem joinBlocks_halves {v : Nat} (h : v < 2 ^ 256 * 2 ^ 256) :
    joinBlocks [BitVec.ofNat 256 v, BitVec.ofNat 256 (v / 2 ^ 256)] = v := by
  have high : v / 2 ^ 256 < 2 ^ 256 := Nat.div_lt_of_lt_mul h
  simp only [joinBlocks, BitVec.toNat_ofNat, Nat.mul_zero, Nat.add_zero]
  rw [Nat.mod_eq_of_lt high, Nat.mod_add_div]

/-- The header fields before the line addresses (Table 11-10). -/
def LogRecord.leadFields (r : LogRecord) : List (Nat × Nat) :=
  [(1, r.kind.code), (1, r.region.val), (1, r.lines.length), (1, r.flags), (4, r.sequence.toNat), (4, r.number.toNat),
    (4, orNone r.previous)]

/-- The header fields after the line addresses, but the header CRC (Table 11-10). -/
def LogRecord.endFields (r : LogRecord) (crc : Word32) : List (Nat × Nat) :=
  [(4, r.generation.toNat), (4, r.firstIndex), (4, crc.toNat)]

/-- The fields of header bytes 0 to 59 (Table 11-10). -/
def LogRecord.fields (r : LogRecord) (crc : Word32) : List (Nat × Nat) := r.leadFields ++ r.lineFields ++ r.endFields crc

/-- The values of the eight line address fields (R34). -/
def LogRecord.lineValues (r : LogRecord) : List Nat := (List.range 8).map fun i => r.lines.getD i none32

theorem LogRecord.lineFields_eq (r : LogRecord) : r.lineFields = r.lineValues.map fun w => (4, w) := by
  rw [LogRecord.lineFields, LogRecord.lineValues, List.map_map]
  rfl

theorem fieldBytes_words (ws : List Nat) : fieldBytes (ws.map fun w => (4, w)) = 4 * ws.length := by
  induction ws with
  | nil => rfl
  | cons w ws ih => rw [List.map_cons, fieldBytes, ih, List.length_cons]; omega

theorem LogRecord.fieldBytes_lead (r : LogRecord) : fieldBytes r.leadFields = 16 := rfl

theorem LogRecord.fieldBytes_lines (r : LogRecord) : fieldBytes r.lineFields = 32 := by
  rw [LogRecord.lineFields_eq, fieldBytes_words]
  simp [LogRecord.lineValues]

theorem LogRecord.fieldBytes_fields (r : LogRecord) (crc : Word32) : fieldBytes (r.fields crc) = 60 := by
  rw [LogRecord.fields, fieldBytes_append, fieldBytes_append, r.fieldBytes_lead, r.fieldBytes_lines]
  rfl

theorem LogRecord.headerBlocks_eq (r : LogRecord) (data : List Line) :
    r.headerBlocks data = [BitVec.ofNat 256 (packFields (sealFields (r.fields (dataCrc data)))),
      BitVec.ofNat 256 (packFields (sealFields (r.fields (dataCrc data))) / 2 ^ 256)] := by
  have sealed := packFields_seal (r.fields (dataCrc data))
  rw [LogRecord.fieldBytes_fields, show 8 * 60 = 480 from rfl] at sealed
  rw [sealed]
  rfl

/-- The eight line addresses of a header: the record's, then the value for none. -/
theorem LogRecord.lineValues_eq {r : LogRecord} (h : r.lines.length ≤ 8) :
    r.lineValues = r.lines ++ List.replicate (8 - r.lines.length) none32 := by
  unfold LogRecord.lineValues
  refine List.ext_getElem (by simp; omega) fun i hi _ => ?_
  rw [List.getElem_map, List.getElem_range, List.getElem_append]
  split_ifs with k
  · simp [k]
  · rw [List.getD_eq_default _ _ (by omega), List.getElem_replicate]

/-- A record whose contents fit the header's fields. -/
structure LogRecord.Fits (r : LogRecord) : Prop where
  count : r.lines.length ≤ 8
  lines : ∀ a ∈ r.lines, a < 2 ^ 32
  firstIndex : r.firstIndex < 2 ^ 32
  previous : ∀ x, r.previous = some x → x < 2 ^ 32

theorem LogRecord.flags_lt (r : LogRecord) : r.flags < 2 ^ 8 := by
  unfold LogRecord.flags
  split_ifs <;> decide

theorem RecordKind.code_lt (k : RecordKind) : k.code < 2 ^ 8 := by cases k <;> decide

theorem LogRecord.Fits.orNone_previous {r : LogRecord} (h : r.Fits) : orNone r.previous < 2 ^ 32 := by
  cases k : r.previous with
  | none => decide
  | some x => exact h.previous x k

theorem LogRecord.Fits.lineValues_mod {r : LogRecord} (h : r.Fits) : r.lineValues.map (· % 2 ^ 32) = r.lineValues := by
  have small : ∀ a ∈ r.lineValues, a < 2 ^ 32 := by
    rw [LogRecord.lineValues_eq h.count]
    intro a ha
    obtain ha | ha := List.mem_append.mp ha
    · exact h.lines a ha
    · rw [List.eq_of_mem_replicate ha]
      decide
  exact (List.map_congr_left fun a ha => Nat.mod_eq_of_lt (small a ha)).trans (List.map_id' _)

/-- The fields before the line addresses, read back. -/
theorem LogRecord.Fits.lead {r : LogRecord} (h : r.Fits) {rest : List (Nat × Nat)} {v : Nat}
    (hv : v = packFields (r.leadFields ++ rest)) :
    fieldAt v 0 1 = r.kind.code ∧ fieldAt v 1 1 = r.region.val ∧ fieldAt v 2 1 = r.lines.length ∧
      fieldAt v 3 1 = r.flags ∧ fieldAt v 4 4 = r.sequence.toNat ∧ fieldAt v 8 4 = r.number.toNat ∧
      fieldAt v 12 4 = orNone r.previous := by
  have count := h.count
  have region := r.region.isLt
  rw [hv]
  simp only [LogRecord.leadFields, List.cons_append, fieldAt_later, fieldAt_first, Nat.reduceLeDiff, Nat.reduceSub]
  exact ⟨Nat.mod_eq_of_lt r.kind.code_lt, Nat.mod_eq_of_lt (by omega), Nat.mod_eq_of_lt (by omega),
    Nat.mod_eq_of_lt r.flags_lt, Nat.mod_eq_of_lt r.sequence.isLt, Nat.mod_eq_of_lt r.number.isLt,
    Nat.mod_eq_of_lt h.orNone_previous⟩

/-- The fields from the line addresses on, read back. -/
theorem LogRecord.Fits.tail {r : LogRecord} (h : r.Fits) {crc : Word32} {rest : List (Nat × Nat)} {v : Nat}
    (hv : v = packFields (r.leadFields ++ (r.lineFields ++ (r.endFields crc ++ rest)))) :
    ((List.range 8).map fun i => fieldAt v (16 + 4 * i) 4) = r.lineValues ∧
      fieldAt v 48 4 = r.generation.toNat ∧ fieldAt v 52 4 = r.firstIndex ∧ fieldAt v 56 4 = crc.toNat := by
  have lines (off n : Nat) : fieldAt v (16 + off) n = fieldAt (packFields (r.lineFields ++ (r.endFields crc ++ rest))) off n := by
    rw [hv, ← r.fieldBytes_lead]
    exact fieldAt_append_right _ _ off n
  have ends (off n : Nat) : fieldAt v (16 + (32 + off)) n = fieldAt (packFields (r.endFields crc ++ rest)) off n := by
    rw [lines, ← r.fieldBytes_lines]
    exact fieldAt_append_right _ _ off n
  refine ⟨?_, (ends 0 4).trans ?_, (ends 4 4).trans ?_, (ends 8 4).trans ?_⟩
  · have words := fieldAt_words r.lineValues (r.endFields crc ++ rest)
    rw [h.lineValues_mod, show r.lineValues.length = 8 by simp [LogRecord.lineValues], ← r.lineFields_eq] at words
    exact (List.map_congr_left fun i _ => lines (4 * i) 4).trans words
  all_goals simp only [LogRecord.endFields, List.cons_append, fieldAt_later, fieldAt_first, Nat.reduceLeDiff, Nat.reduceSub]
  · exact Nat.mod_eq_of_lt r.generation.isLt
  · exact Nat.mod_eq_of_lt h.firstIndex
  · exact Nat.mod_eq_of_lt crc.isLt

/-- A record's header blocks read back as its header, with a good CRC. -/
theorem LogRecord.Fits.readHeader {r : LogRecord} (h : r.Fits) (crc : Word32) :
    let v := packFields (sealFields (r.fields crc))
    readHeader (BitVec.ofNat 256 v) (BitVec.ofNat 256 (v / 2 ^ 256)) = r.shown crc := by
  intro v
  have hv : v = packFields (r.leadFields ++ (r.lineFields ++ (r.endFields crc ++
      [(4, (crc32 (fieldBytes (r.fields crc)) (packFields (r.fields crc))).toNat)]))) := by
    simp only [v, sealFields, LogRecord.fields, List.append_assoc]
  have lt : v < 2 ^ 256 * 2 ^ 256 := by
    have k := packFields_seal_lt (r.fields crc)
    rwa [r.fieldBytes_fields, show 8 * (60 + 4) = 256 + 256 from rfl, pow_add] at k
  have good := crc_seal (r.fields crc)
  rw [r.fieldBytes_fields] at good
  obtain ⟨kind, region, count, flags, sequence, number, previous⟩ := h.lead hv
  obtain ⟨addrs, generation, firstIndex, dataCrc⟩ := h.tail hv
  unfold Machine.readHeader
  rw [joinBlocks_halves lt]
  simp only [kind, region, count, flags, sequence, number, previous, addrs, generation, firstIndex, dataCrc,
    BitVec.ofNat_toNat, BitVec.setWidth_eq, LogRecord.lineValues_eq h.count]
  rw [good, beq_self_eq_true]
  rfl

/-! ## WRAP markers and anchors (Tables 11-11 and 11-12) -/

/-- The fields of a WRAP marker but its CRC. -/
def wrapFields (sequence generation : Word32) : List (Nat × Nat) :=
  [(1, 4), (3, 0), (4, sequence.toNat), (4, generation.toNat), (16, 0)]

theorem toNat_wrapBlock (sequence generation : Word32) :
    (wrapBlock sequence generation).toNat = packFields (sealFields (wrapFields sequence generation)) :=
  toNat_seal_block (fs := wrapFields sequence generation) rfl

/-- The fields of an anchor block but its CRC. -/
def anchorFields (sequence : Word32) (g : Geometry) (generation : Word32) (tail : Nat) (tailSeq : Word32) :
    List (Nat × Nat) :=
  [(4, Config.anchorMarker), (4, sequence.toNat), (4, g.base), (4, g.size), (4, generation.toNat), (4, tail),
    (4, tailSeq.toNat)]

theorem toNat_anchorBlock (sequence : Word32) (g : Geometry) (generation : Word32) (tail : Nat) (tailSeq : Word32) :
    (anchorBlock sequence g generation tail tailSeq).toNat =
      packFields (sealFields (anchorFields sequence g generation tail tailSeq)) :=
  toNat_seal_block (fs := anchorFields sequence g generation tail tailSeq) rfl

theorem readAnchor_anchorBlock {sequence generation tailSeq : Word32} {g : Geometry} {tail : Nat} (base : g.base < 2 ^ 32)
    (size : g.size < 2 ^ 32) (ht : tail < 2 ^ 32) : readAnchor (anchorBlock sequence g generation tail tailSeq) =
      ⟨sequence, g.base, g.size, generation, tail, tailSeq⟩ := by
  unfold readAnchor
  simp only [toNat_anchorBlock, sealFields, anchorFields, List.cons_append, fieldAt_later, fieldAt_first, Nat.reduceLeDiff,
    Nat.reduceSub, Nat.reduceMul, Nat.mod_eq_of_lt base, Nat.mod_eq_of_lt size, Nat.mod_eq_of_lt ht, ofNat_toNat_mod]

/-- The tests of R51, one by one. -/
theorem anchorValid_iff (memory : Nat) (b : Line) : anchorValid memory b = true ↔
    fieldAt b.toNat 0 4 = Config.anchorMarker ∧
      crc32 28 (fieldAt b.toNat 0 28) = BitVec.ofNat 32 (fieldAt b.toNat 28 4) ∧
      (readAnchor b).base % 4096 = 0 ∧ (readAnchor b).size % 4096 = 0 ∧ 8192 ≤ (readAnchor b).size ∧
      (readAnchor b).size ≤ 2097152 ∧ (readAnchor b).base + (readAnchor b).size ≤ memory - 64 ∧
      (readAnchor b).generation ≠ 0 ∧ (readAnchor b).tail < (readAnchor b).size / 32 := by
  simp [anchorValid, and_assoc]

/-- Settles O53: each block is sealed fields, which read back one by one; R37's value is computed. -/
theorem logContentsReadBack : Obligations.LogContentsReadBack := by
  refine ⟨fun r data count lines firstIndex previous => ?_, fun seq generation => ?_,
    fun seq generation tailSeq g tail memory hm hn hb hs low high top ht => ?_, by decide⟩
  · have crc : dataCrc data = if data = [] then 0 else crc32 (32 * data.length) (joinBlocks data) := by
      simp [dataCrc, List.isEmpty_iff]
    have read := LogRecord.Fits.readHeader ⟨count, lines, firstIndex, previous⟩ (dataCrc data)
    exact ⟨_, _, r.headerBlocks_eq data, by rw [← crc]; exact read⟩
  · have good := crc_seal (wrapFields seq generation)
    dsimp only [blockKind]
    rw [toNat_wrapBlock]
    refine ⟨fieldAt_first 1 4 _, ?_, ?_, good.symm⟩ <;>
      simp only [sealFields, wrapFields, List.cons_append, fieldAt_later, fieldAt_first, Nat.reduceLeDiff, Nat.reduceSub]
    · exact Nat.mod_eq_of_lt seq.isLt
    · exact Nat.mod_eq_of_lt generation.isLt
  · have blocks : g.blocks = g.size / 32 := rfl
    have read := readAnchor_anchorBlock (sequence := seq) (generation := generation) (tailSeq := tailSeq) (g := g)
      (tail := tail) (by omega) (by omega) (by omega)
    refine ⟨(anchorValid_iff _ _).mpr ?_, read⟩
    rw [read, toNat_anchorBlock]
    exact ⟨fieldAt_first 4 _ _, crc_seal (anchorFields seq g generation tail tailSeq), hb, hs, low, high, top, hn, ht⟩

end Sys2Proof.Machine
end

section
/-! SUPPORT. The start of the FORMAT and the recovery anchor writes, and an anchor write whose attempt fails (R52, R57, R103,
R107, R130, R134). -/

namespace Sys2Proof.Machine

/-! ## What follows on an event once recovery has ended (R134, R155) -/

/-- The oldest entry of its tag may start exactly when it waits for its line and its line is clear (R155). -/
theorem State.mayStart_of_first {s : State} {pre post : List Entry} {e : Entry} (hs : Stands s pre e post)
    (hp : ∀ x ∈ pre, x.tag ≠ e.tag) : s.mayStart e = true ↔ e.state = .waitOrder ∧ LineClear s pre e := by
  have older : s.olderSameLine e = true ↔ ∃ x ∈ pre, lineOf x.addr = lineOf e.addr := by
    unfold State.olderSameLine
    rw [hs, List.takeWhile_append_of_pos (by simpa using hp), List.takeWhile_cons_of_neg (by simp)]
    simp
  have quarantine : s.lineQuarantined e = true ↔ ∃ g a, s.tag g = .quarantined a ∧ lineOf a = lineOf e.addr := by
    simp [State.lineQuarantined, State.anyTag_quarantinedAt]
  simp only [State.mayStart, Bool.and_eq_true, beq_iff_eq, Bool.not_eq_true', ← Bool.not_eq_true, older, quarantine,
    LineClear, and_assoc]
  simp

/-- Where no entry of the table may start, the pass over the table leaves the state. -/
theorem State.startEntries_of_noneStarts {s : State} (h : NoneStarts s s.table) : s.startEntries = s := by
  have one (tag : HostTag) : s.startDue tag = s := by
    unfold State.startDue
    split
    · next e he =>
      obtain ⟨ht, pre, post, hs, hp⟩ := List.find?_eq_some_iff_append.mp he
      obtain rfl : e.tag = tag := by simpa using ht
      have stays : ¬s.mayStart e = true := by
        rw [State.mayStart_of_first hs (by simpa using hp)]
        exact fun k => h pre e post hs k.1 k.2
      rw [if_neg stays]
    · rfl
  unfold State.startEntries
  generalize s.table.map Entry.tag = tags
  induction tags with
  | nil => rfl
  | cons tag tags ih => rw [List.foldl_cons, one, ih]

/-- Once recovery has ended and no entry may start, all that follows on an event is the recovery anchor (R134). -/
theorem State.followOn_of_recovered {s : State} (h : NoneStarts s s.table) (hr : s.recovered = true) :
    s.followOn = s.endRecovery := by
  obtain ⟨device, queue, walk⟩ := s.recovered_iff.mp hr
  have next : s.nextWalk = s := by
    unfold State.nextWalk
    rw [walk, queue]
  have drain : s.passDrain = s := by
    unfold State.passDrain
    rw [walk]
  have recovery : s.passRecovery = s.endRecovery := if_pos hr
  have settling : s.endRecovery.passSettling = s.endRecovery := by
    obtain ⟨a, w, q, e, -⟩ := s.endRecovery_shape
    have stays : s.endRecovery.device = s.device := by rw [e]
    unfold State.passSettling
    rw [if_neg (by simp [stays, device])]
  unfold State.followOn
  rw [State.startEntries_of_noneStarts h, next, drain, recovery, settling]

/-- The recovery anchor write starts on the event that ends recovery, and after it nothing follows (R134). -/
theorem State.recovery_starts {s : State} {g : Geometry} (hi : s.inReset = false) (hg : s.log.geometry = some g)
    (hr : s.recovered = true) (ha : s.log.anchor = none) :
    exec .recoveryEnd s = .next (s.startAnchor .recovery) ∧
      (NoneStarts s s.table → s.followOn = (s.startAnchor .recovery).followOn) ∧
      AnchorStarted s (s.startAnchor .recovery) .recovery g := by
  have starts : s.endRecovery = s.startAnchor .recovery := by
    unfold State.endRecovery
    rw [ha]
  have acts : s.passRecovery = s.endRecovery := if_pos hr
  refine ⟨congrArg Host.Outcome.next ((State.unlessReset_acts hi _).trans (acts.trans starts)), fun h => ?_,
    (s.startAnchor_started .recovery g hg).1⟩
  rw [State.followOn_of_recovered h hr, starts]
  obtain ⟨⟨a, anchor, purpose, -⟩, -⟩ := s.startAnchor_started .recovery g hg
  have keeps := Keeps.startAnchor s .recovery
  have tags := s.tag_startAnchor .recovery
  generalize s.startAnchor .recovery = t at anchor keeps tags ⊢
  have quiet : NoneStarts t t.table := by
    rw [keeps.part .table rfl]
    exact h.congr fun q x hq => (tags q).trans hq
  have recovered : t.recovered = true := by
    obtain ⟨device, queue, walk⟩ := s.recovered_iff.mp hr
    refine t.recovered_iff.mpr ⟨(keeps.part .device rfl).trans device, (keeps.queue rfl).trans queue, ?_⟩
    rw [← walk]
    exact (congrArg Engine.walk (keeps.engineBare rfl) :)
  rw [State.followOn_of_recovered quiet recovered]
  unfold State.endRecovery
  rw [anchor]
  exact (if_pos purpose).symm

/-- A recovery anchor waits for an anchor write in progress that is not one itself (R134). -/
theorem State.recovery_waits {s : State} {a : AnchorWrite} (hi : s.inReset = false) (hr : s.recovered = true)
    (ha : s.log.anchor = some a) (hp : a.purpose ≠ .recovery) :
    exec .recoveryEnd s = .next { s with log := { s.log with recoveryWanted := true } } := by
  have acts : s.passRecovery = s.endRecovery := if_pos hr
  have waits : s.endRecovery = { s with log := { s.log with recoveryWanted := true } } := by
    unfold State.endRecovery
    rw [ha]
    exact if_neg hp
  exact congrArg Host.Outcome.next ((State.unlessReset_acts hi _).trans (acts.trans waits))

/-! ## FORMAT's first anchor write (R57) -/

/-- The log without FORMAT's anchor writes to begin. -/
def State.formatBegun (s : State) : State := s.updLog fun l => { l with formatPending := false }

theorem State.beginFormatAnchors_eq (s : State) : s.beginFormatAnchors =
    if s.device = .formatting ∧ s.log.formatPending = true ∧ s.log.formatDrain = [] then
      s.formatBegun.startAnchor .formatFirst
    else s := rfl

theorem State.formatAnchors_begin {s : State} {g : Geometry} (hg : s.log.geometry = some g) :
    AnchorStarted s (s.formatBegun.startAnchor .formatFirst) .formatFirst g ∧
      (s.formatBegun.startAnchor .formatFirst).log.formatPending = false ∧
      Keeps [.log, .dport] s (s.formatBegun.startAnchor .formatFirst) := by
  obtain ⟨started, a, e⟩ := s.formatBegun.startAnchor_started .formatFirst g hg
  refine ⟨started, ?_, ((Keeps.updLog s rfl).mono (by decide)).trans (.startAnchor s.formatBegun _)⟩
  rw [e]
  rfl

/-! ## A failed attempt (R103, R107) -/

/-- An ERR response on an OUTSTANDING tag frees it and goes to its owner (R167). -/
theorem State.respond_err {s : State} {g : DownTag} {owner : Owner} {cls : IssueClass} {op : Op}
    {addr timer at_ : Nat} {live : Bool} (h : s.tag g = .outstanding owner cls op addr timer at_ live) (data : Line) :
    s.respond g false data = ((s.setTag g .free).deliver owner live addr none).followOn := by
  unfold State.respond
  rw [h]
  rfl

/-- The last outcome of an attempt, an ERR: the attempt is made again while the limit allows (R103). -/
theorem VerifiedUnit.take_err {u : VerifiedUnit} (hl : u.left = 1) (limit addr : Nat) :
    u.take limit addr none = if u.attempts - 1 < limit then
      .rewrite ⟨u.blocks, u.attempts + 1, false, u.blocks.length, false⟩ else .exhausted u.attempts := by
  unfold VerifiedUnit.take
  rw [VerifiedUnit.judge_failed _ _ (by simp [hl]) (by simp [VerifiedUnit.bad])]

/-- The event of an anchor write's failed attempt is its outcome's. -/
theorem State.anchor_fails {s : State} {g : DownTag} {d : Line} {a : AnchorWrite} (hi : s.inReset = false)
    (h : FailsAnchor s g a) : exec (.downstreamResponse g false d) s =
      .next (State.followOn (if a.unit.attempts - 1 < s.params.retryLimit then
        ((s.setTag g .free).updLog fun l => { l with anchor := some { a with
            unit := ⟨a.unit.blocks, a.unit.attempts + 1, false, a.unit.blocks.length, false⟩ } }).handAnchor
          (a.unit.blocks.map fun x => writeBlock .logManager x.1 x.2)
      else (s.setTag g .free).anchorExhausted a a.unit.attempts)) := by
  obtain ⟨ha, hl, addr, cls, op, timer, at_, ht⟩ := h
  refine congrArg Host.Outcome.next ((State.unlessReset_acts hi _).trans ?_)
  rw [State.respond_err ht]
  refine congrArg State.followOn ?_
  have anchor : (s.setTag g .free).log.anchor = some a := ha
  show (s.setTag g .free).anchorOutcome addr none = _
  unfold State.anchorOutcome
  rw [anchor]
  dsimp only
  rw [VerifiedUnit.take_err hl, show (s.setTag g .free).params = s.params from rfl]
  split_ifs <;> rfl

/-! ## The entry to LOG_FAULT (R108, R109) -/

/-- No AT_CLOSE apply is pending. -/
def NoApplyAtClose (s : State) : Prop := ∀ r, (s.region r).pendingApply ≠ .atClose

theorem NoApplyAtClose.of_keeps {c : List Part} {s t : State} (h : NoApplyAtClose s) (k : Keeps c s t)
    (hc : c.contains .regions = false) : NoApplyAtClose t := fun r => by
  have apply : (t.region r).pendingApply = (s.region r).pendingApply := (congrArg Region.pendingApply (k.bare hc r) :)
  rw [apply]
  exact h r

theorem NoApplyAtClose.updRegion {s : State} (h : NoApplyAtClose s) {r : RegionId} {f : Region → Region}
    (hf : (f (s.region r)).pendingApply = (s.region r).pendingApply) : NoApplyAtClose (s.updRegion r f) := fun q => by
  rw [State.region_updRegion]
  split_ifs
  · rw [hf]
    exact h r
  · exact h q

/-- Without a pending AT_CLOSE apply a return to IDLE pushes no fault (R11, R23). -/
theorem NoApplyAtClose.returnToIdle {s : State} (h : NoApplyAtClose s) (r : RegionId) (number : Word32 → Word32) :
    NoApplyAtClose (s.returnToIdle r number) ∧ (s.returnToIdle r number).faults = s.faults := by
  unfold State.returnToIdle
  extract_lets a b c
  have ha : NoApplyAtClose a := NoApplyAtClose.updRegion h rfl
  have hb : NoApplyAtClose b := ha
  have hc : NoApplyAtClose c := NoApplyAtClose.updRegion hb rfl
  have still : c.applyAtReturn r = c := if_neg (hc r)
  have release := Keeps.releaseHeld c r
  rw [still]
  exact ⟨hc.of_keeps release rfl, release.part .faults rfl⟩

theorem Keeps.enterFaulted (s : State) (r : RegionId) :
    Keeps [.regions, .drains, .directory, .table, .responses] s (s.enterFaulted r) := by
  unfold State.enterFaulted
  extract_lets a b
  exact ((Keeps.updContext s r _).mono (by decide)).trans
    (((Keeps.freeDirectory a r).mono (by decide)).trans ((Keeps.answerErrors b _ _).mono (by decide)))

theorem NoApplyAtClose.enterFaulted {s : State} (h : NoApplyAtClose s) (r : RegionId) :
    NoApplyAtClose (s.enterFaulted r) := by
  unfold State.enterFaulted
  extract_lets a b
  have ha : NoApplyAtClose a := NoApplyAtClose.updRegion h rfl
  have hb : NoApplyAtClose b := ha
  exact hb.of_keeps (Keeps.answerErrors b _ _) rfl

/-- A region at the entry to LOG_FAULT is left alone, returns to IDLE, with COMMIT_DONE for a commit, or enters FAULTED
(R109). -/
theorem State.logFaultRegion_cases (s : State) (r : RegionId) :
    s.logFaultRegion r = s ∨ s.logFaultRegion r = s.returnToIdle r nextNumber ∨
      s.logFaultRegion r = (s.returnToIdle r nextNumber).setNotice (commitDone r) ∨
      s.logFaultRegion r = s.enterFaulted r := by
  unfold State.logFaultRegion
  split
  · exact .inl rfl
  · exact .inl rfl
  · split_ifs
    · exact .inr (.inl rfl)
    · exact .inr (.inr (.inr rfl))
  · split_ifs
    · exact .inr (.inr (.inl rfl))
    · exact .inr (.inr (.inr rfl))
  · exact .inr (.inr (.inr rfl))

theorem Keeps.logFaultRegion (s : State) (r : RegionId) : Keeps formatParts s (s.logFaultRegion r) := by
  have back := (s.returnToIdle_effect r nextNumber).keeps
  obtain e | e | e | e := s.logFaultRegion_cases r <;> rw [e]
  · exact .refl _ s
  · exact back
  · exact back.notice _ rfl
  · exact (Keeps.enterFaulted s r).mono (by decide)

theorem NoApplyAtClose.logFaultRegion {s : State} (h : NoApplyAtClose s) (r : RegionId) :
    NoApplyAtClose (s.logFaultRegion r) ∧ (s.logFaultRegion r).faults = s.faults := by
  have back := h.returnToIdle r nextNumber
  obtain e | e | e | e := s.logFaultRegion_cases r <;> rw [e]
  · exact ⟨h, rfl⟩
  · exact back
  · exact back
  · exact ⟨h.enterFaulted r, (Keeps.enterFaulted s r).part .faults rfl⟩

theorem NoApplyAtClose.logFaultRegions (l : List RegionId) {s : State} (h : NoApplyAtClose s) :
    (l.foldl State.logFaultRegion s).faults = s.faults := by
  induction l generalizing s with
  | nil => rfl
  | cons r l ih =>
    obtain ⟨k, faults⟩ := h.logFaultRegion r
    exact (ih k).trans faults

theorem Keeps.stopWriter (s : State) : Keeps [.writer, .dport] s s.stopWriter := by
  unfold State.stopWriter
  rw [State.stopOwner_eq]
  exact ⟨fun p hp => by cases p <;> simp_all [Part.same, State.region], rfl, rfl, rfl⟩

/-- The part at its entry to LOG_FAULT, before the regions are dealt with (R108). -/
def State.faultEntered (s : State) : State :=
  let s := s.setDevice .logFault
  let s := s.updLog fun l => { l with deferred := none, anchorWanted := false, recoveryWanted := false }
  let s := s.stopWriter
  (s.answerErrors s.writerEntries fun _ => .logFault).endWalk.updEngine fun e => { e with queue := [] }

theorem State.stopForLogFault_eq (s : State) :
    s.stopForLogFault = allRegions.foldl State.logFaultRegion s.faultEntered := rfl

/-- What the entry to LOG_FAULT changes before the regions are dealt with, beside the device state and the log. -/
def faultParts : List Part := [.writer, .dport, .table, .drains, .responses, .engine]

theorem Keeps.faultEntered (s : State) : Keeps faultParts
    ((s.setDevice .logFault).updLog fun l => { l with deferred := none, anchorWanted := false, recoveryWanted := false })
    s.faultEntered := by
  unfold State.faultEntered
  extract_lets a b c
  exact ((Keeps.stopWriter b).mono (by decide)).trans (((Keeps.answerErrors c _ _).mono (by decide)).trans
    (((Keeps.endWalk _).mono (by decide)).trans ((Keeps.updEngine _ rfl).mono (by decide))))

/-- What the entry to LOG_FAULT leaves of the anchors, and of the Fault Queue where no AT_CLOSE apply is pending. -/
structure FaultStopped (s t : State) : Prop where
  device : t.device = .logFault
  log : t.log.bare = { s.log with deferred := none, anchorWanted := false, recoveryWanted := false, formatDrain := [] }
  faults : NoApplyAtClose s → t.faults = s.faults

theorem FaultStopped.anchors {s t : State} (h : FaultStopped s t) : t.log.anchor = s.log.anchor ∧
    t.log.slot = s.log.slot ∧ t.log.anchorSeq = s.log.anchorSeq ∧ t.log.durableTail = s.log.durableTail :=
  ⟨(congrArg LogState.anchor h.log :), (congrArg LogState.slot h.log :), (congrArg LogState.anchorSeq h.log :),
    (congrArg LogState.durableTail h.log :)⟩

theorem State.stopForLogFault_stopped (s : State) : FaultStopped s s.stopForLogFault := by
  have entered := Keeps.faultEntered s
  have regions := Keeps.foldl Keeps.logFaultRegion allRegions s.faultEntered
  have quiet : NoApplyAtClose s → (allRegions.foldl State.logFaultRegion s.faultEntered).faults = s.faultEntered.faults :=
    fun h => NoApplyAtClose.logFaultRegions allRegions
      (NoApplyAtClose.of_keeps (s := (s.setDevice .logFault).updLog fun l =>
        { l with deferred := none, anchorWanted := false, recoveryWanted := false }) h entered rfl)
  rw [State.stopForLogFault_eq]
  generalize s.faultEntered = u at entered regions quiet ⊢
  exact ⟨(regions.part .device rfl).trans (entered.part .device rfl), (regions.logBare rfl).trans (entered.logBare rfl),
    fun h => (quiet h).trans (entered.part .faults rfl)⟩

/-! ## An exhausted anchor write (R52, R107) -/

/-- What a failure of the log side comes to in each device state (R57, R107, R133). -/
theorem State.logSideFailure_cases (s : State) :
    s.device = .run ∧ s.logSideFailure = s.stopForLogFault ∨
      s.device = .restoring ∧ s.logSideFailure = s.stopForLogFault.endStartup ∨
      s.device = .formatting ∧ s.logSideFailure = s.setDevice .logFault ∨
      (s.device ≠ .run ∧ s.device ≠ .restoring ∧ s.device ≠ .formatting) ∧ s.logSideFailure = s := by
  unfold State.logSideFailure
  cases s.device <;> simp

/-- The device after a failure of the log side, with what the failure leaves of the anchors and the faults. -/
structure LogSideFailed (s t : State) : Prop where
  anchors : t.log.anchor = s.log.anchor ∧ t.log.slot = s.log.slot ∧ t.log.anchorSeq = s.log.anchorSeq ∧
    t.log.durableTail = s.log.durableTail
  flags : ∀ n, s.flag n = true → t.flag n = true
  faults : NoApplyAtClose s → t.faults = s.faults
  enters : s.device = .run ∨ s.device = .restoring ∨ s.device = .formatting → t.device = .logFault
  starts : s.device = .restoring → t.flag started = true
  formatting : s.device = .formatting → Keeps [.device] s t
  stays : s.device ≠ .run → s.device ≠ .restoring → s.device ≠ .formatting → t = s

theorem State.logSideFailure_failed (s : State) : LogSideFailed s s.logSideFailure := by
  have flags := (Kept.logSideFailure s).note.flags
  have stopped := s.stopForLogFault_stopped
  have anchors := stopped.anchors
  obtain ⟨hd, e⟩ | ⟨hd, e⟩ | ⟨hd, e⟩ | ⟨⟨h1, h2, h3⟩, e⟩ := s.logSideFailure_cases <;> rw [e] at flags ⊢
  · generalize s.stopForLogFault = t at stopped anchors flags ⊢
    exact ⟨anchors, flags, stopped.faults, fun _ => stopped.device, fun h => absurd (hd.symm.trans h) (by decide),
      fun h => absurd (hd.symm.trans h) (by decide), fun h => absurd hd h⟩
  · generalize s.stopForLogFault = t at stopped anchors flags ⊢
    exact ⟨anchors, flags, stopped.faults, fun _ => stopped.device, fun _ => t.flag_setNotice_self started,
      fun h => absurd (hd.symm.trans h) (by decide), fun _ h => absurd hd h⟩
  · exact ⟨⟨rfl, rfl, rfl, rfl⟩, flags, fun _ => rfl, fun _ => rfl, fun h => absurd (hd.symm.trans h) (by decide),
      fun _ => Keeps.setDevice s _, fun _ _ h => absurd hd h⟩
  · exact ⟨⟨rfl, rfl, rfl, rfl⟩, flags, fun _ => rfl, fun h => absurd h (by simp [h1, h2, h3]), fun h => absurd h h2,
      fun h => absurd h h3, fun _ _ _ => rfl⟩

/-- The fault of an exhausted anchor write (R107, R115). -/
def State.anchorFault (s : State) (a : AnchorWrite) (attempts : Nat) : FaultEntry :=
  ⟨.anchorWrite, none, some (s.slotAddr a.slot), none, attempts, false⟩

/-- The anchor write given up and its fault pushed, before the log side fails. -/
def State.anchorLost (s : State) (a : AnchorWrite) (attempts : Nat) : State :=
  (s.updLog fun l => { l with anchor := none }).pushFault (s.anchorFault a attempts)

theorem State.anchorExhausted_eq (s : State) (a : AnchorWrite) (attempts : Nat) : s.anchorExhausted a attempts =
    if s.device = .quiescing then (if a.purpose = .closing then (s.anchorLost a attempts).halt else s.anchorLost a attempts)
    else (s.anchorLost a attempts).logSideFailure := rfl

theorem Keeps.anchorLost (s : State) (a : AnchorWrite) (attempts : Nat) :
    Keeps [.log, .faults, .notices] s (s.anchorLost a attempts) :=
  ((Keeps.updLog s rfl).mono (by decide)).trans ((Keeps.pushFault _ _).mono (by decide))

/-- What an exhausted anchor write comes to, from the state `s` of its last response (R52, R107). -/
structure AnchorExhausted (s t : State) (a : AnchorWrite) : Prop where
  anchors : t.log.anchor = none ∧ t.log.slot = s.log.slot ∧ t.log.anchorSeq = s.log.anchorSeq ∧
    t.log.durableTail = s.log.durableTail
  flag : t.flag faultSource = true
  faults : NoApplyAtClose s → t.faults = pushEntry s.faults (s.anchorFault a a.unit.attempts)
  enters : s.device = .run ∨ s.device = .restoring ∨ s.device = .formatting → t.device = .logFault
  starts : s.device = .restoring → t.flag started = true
  keeps : s.device = .formatting ∨ s.device = .logFault ∨ s.device = .quiescing ∧ a.purpose ≠ .closing →
    Keeps [.device, .log, .dport, .faults, .notices] s t
  stays : s.device = .logFault ∨ s.device = .quiescing ∧ a.purpose ≠ .closing → t.device = s.device

theorem State.anchorExhausted_exhausted (s : State) (g : DownTag) (a : AnchorWrite) :
    AnchorExhausted s ((s.setTag g .free).anchorExhausted a a.unit.attempts) a := by
  have lost : Keeps [.device, .log, .dport, .faults, .notices] s ((s.setTag g .free).anchorLost a a.unit.attempts) :=
    ((Keeps.updDport s _).mono (by decide)).trans ((Keeps.anchorLost _ a _).mono (by decide))
  have device : ((s.setTag g .free).anchorLost a a.unit.attempts).device = s.device := rfl
  have flag : ((s.setTag g .free).anchorLost a a.unit.attempts).flag faultSource = true := State.flag_setNotice_self _ _
  have failed := ((s.setTag g .free).anchorLost a a.unit.attempts).logSideFailure_failed
  rw [State.anchorExhausted_eq]
  change AnchorExhausted s (if s.device = .quiescing then _ else _) a
  by_cases hq : s.device = .quiescing
  · have other (h : s.device = .run ∨ s.device = .restoring ∨ s.device = .formatting) : False := by simp [hq] at h
    rw [if_pos hq]
    split_ifs with hp
    · exact ⟨⟨rfl, rfl, rfl, rfl⟩, flag, fun _ => rfl, fun h => (other h).elim, fun h => (other (.inr (.inl h))).elim,
        fun h => absurd h (by simp [hq, hp]), fun h => absurd h (by simp [hq, hp])⟩
    · exact ⟨⟨rfl, rfl, rfl, rfl⟩, flag, fun _ => rfl, fun h => (other h).elim, fun h => (other (.inr (.inl h))).elim,
        fun _ => lost, fun _ => rfl⟩
  · rw [if_neg hq]
    refine ⟨failed.anchors, failed.flags _ flag, failed.faults, failed.enters, failed.starts, fun h => ?_, fun h => ?_⟩
    · obtain h | h | ⟨h, -⟩ := h
      · exact lost.trans ((failed.formatting h).mono (by decide))
      · rw [failed.stays (by simp [device, h]) (by simp [device, h]) (by simp [device, h])]
        exact lost
      · exact absurd h hq
    · obtain h | ⟨h, -⟩ := h
      · rw [failed.stays (by simp [device, h]) (by simp [device, h]) (by simp [device, h])]
        exact device
      · exact absurd h hq

end Sys2Proof.Machine
end

section
/-! SUPPORT. A verified anchor write: what it leaves standing whatever follows, and the sequel of each purpose (R48 to R50, R52,
R53, R57, R134). -/

namespace Sys2Proof.Machine

/-! ## The current anchor stands -/

/-- The current slot, its sequence, the durable tail and the tags are the same in two states. -/
structure AnchorStands (s t : State) : Prop where
  slot : t.log.slot = s.log.slot
  anchorSeq : t.log.anchorSeq = s.log.anchorSeq
  durableTail : t.log.durableTail = s.log.durableTail
  tag : ∀ g, t.tag g = s.tag g

/-- The sequel of a verified anchor write, by its purpose, or none (R53, R57, R134, R145). -/
theorem State.anchorSequel_cases (s : State) (p : AnchorPurpose) : s.anchorSequel p = s ∨
    (p = .recovery ∧ s.device = .restoring ∧ s.anchorSequel p = (s.setDevice .run).endStartup) ∨
    (p = .formatFirst ∧ s.device = .formatting ∧ s.anchorSequel p = s.startAnchor .formatSecond) ∨
    (p = .formatSecond ∧ s.device = .formatting ∧ s.anchorSequel p = s.setDevice .run) ∨
    (p = .closing ∧ s.device = .quiescing ∧ s.anchorSequel p = s.halt) := by
  unfold State.anchorSequel
  cases p with
  | reclaim => exact .inl rfl
  | recovery => by_cases h : s.device = .restoring <;> simp [h]
  | formatFirst => by_cases h : s.device = .formatting <;> simp [h]
  | formatSecond => by_cases h : s.device = .formatting <;> simp [h]
  | closing => by_cases h : s.device = .quiescing <;> simp [h]

namespace AnchorStands

theorem refl (s : State) : AnchorStands s s := ⟨rfl, rfl, rfl, fun _ => rfl⟩

theorem trans {s t u : State} (a : AnchorStands s t) (b : AnchorStands t u) : AnchorStands s u :=
  ⟨b.slot.trans a.slot, b.anchorSeq.trans a.anchorSeq, b.durableTail.trans a.durableTail,
    fun g => (b.tag g).trans (a.tag g)⟩

/-- An event that leaves the downstream port, and the log but for its deferred admission. -/
theorem of_undeferred {s t : State} (hl : t.log.undeferred = s.log.undeferred) (hd : t.dport = s.dport) : AnchorStands s t :=
  ⟨(congrArg LogState.slot hl :), (congrArg LogState.anchorSeq hl :), (congrArg LogState.durableTail hl :),
    State.tag_congr hd⟩

theorem startAnchor (s : State) (p : AnchorPurpose) : AnchorStands s (s.startAnchor p) := by
  have tags := s.tag_startAnchor p
  obtain ⟨a, q, e, -⟩ := s.startAnchor_shape p
  rw [e] at tags ⊢
  exact ⟨rfl, rfl, rfl, tags⟩

theorem strideTrigger (s : State) : AnchorStands s s.strideTrigger := by
  obtain ⟨-, k⟩ | ⟨-, ⟨-, k⟩ | ⟨-, k⟩⟩ := s.strideTrigger_cases <;> rw [k]
  · exact refl s
  · exact ⟨rfl, rfl, rfl, fun _ => rfl⟩
  · exact startAnchor s _

theorem afterAnchor (s : State) : AnchorStands s s.afterAnchor := by
  unfold State.afterAnchor
  split_ifs
  · exact trans (t := s.updLog fun l => { l with recoveryWanted := false, anchorWanted := false })
      ⟨rfl, rfl, rfl, fun _ => rfl⟩ (startAnchor _ _)
  · exact trans (t := s.updLog fun l => { l with anchorWanted := false }) ⟨rfl, rfl, rfl, fun _ => rfl⟩ (strideTrigger _)
  · exact refl s

theorem anchorSequel (s : State) (p : AnchorPurpose) : AnchorStands s (s.anchorSequel p) := by
  have device {t : State} (hl : t.log = s.log) (hd : t.dport = s.dport) : AnchorStands s t :=
    of_undeferred (congrArg LogState.undeferred hl) hd
  obtain e | ⟨-, -, e⟩ | ⟨-, -, e⟩ | ⟨-, -, e⟩ | ⟨-, -, e⟩ := s.anchorSequel_cases p <;> rw [e]
  · exact refl s
  · exact device rfl rfl
  · exact startAnchor s _
  · exact device rfl rfl
  · exact device rfl rfl

end AnchorStands

/-! ## A granted group (R48, R69) -/

/-- The build a grant fixes: the record's placement and its header (R70). -/
def State.grantBuild (s : State) (g : Group) : Build :=
  let x := s.region g.region
  let p := s.log.placement (2 + g.lines.length)
  { record :=
      { kind := .undo, region := g.region, first := decide (x.records = 0), recovery := false, sequence := p.2,
        number := g.number, previous := if x.records = 0 then none else x.lastIndex,
        lines := g.lines.map GroupLine.addr, generation := s.log.generation,
        firstIndex := if x.records = 0 then p.1.index else x.firstIndex.getD p.1.index }
    place := p.1
    group := some g
    stage := .reading }

/-- The part with a group admitted, before its build is taken or held (R48). -/
def State.admitted (s : State) (g : Group) : State :=
  let x := s.region g.region
  let p := s.log.placement (2 + g.lines.length)
  let s := s.admitRecord g.region (decide (x.records = 0)) g.lines.length
  let s := s.updRegion g.region fun y =>
    { y with records := y.records + 1, firstIndex := if x.records = 0 then some p.1.index else y.firstIndex,
             lastIndex := some p.1.index }
  let s := s.updWriter fun w => { w with deferred := none, held := w.held.set g.region.val none }
  (s.updLog fun l => { l with deferred := none }).moveEntries g.members .waitLog

theorem State.grant_eq (s : State) (g : Group) : s.grant g =
    if (s.admitted g).writer.builder.isNone then (s.admitted g).startBuild (s.grantBuild g)
    else (s.admitted g).updWriter fun w => { w with granted := some (s.grantBuild g) } := rfl

/-- What the Log Manager's part of an admission changes (R43, R48). -/
theorem State.admitRecord_shape (s : State) (r : RegionId) (first : Bool) (lines : Nat) :
    ∃ l notices, s.admitRecord r first lines = { s with log := l, notices := notices } ∧
      l.unresolved = (if first then s.log.unresolved + 1 else s.log.unresolved) ∧ l.slot = s.log.slot ∧
      l.anchorSeq = s.log.anchorSeq ∧ l.durableTail = s.log.durableTail ∧ l.anchorWanted = s.log.anchorWanted := by
  obtain ⟨below, notices, e⟩ := s.placeAtHead_eq (2 + lines)
  unfold State.admitRecord
  rw [e]
  cases first with
  | true => exact ⟨_, _, rfl, rfl, rfl, rfl, rfl, rfl⟩
  | false => exact ⟨_, _, rfl, rfl, rfl, rfl, rfl, rfl⟩

/-- What an admission leaves where the build is taken or held (R48). -/
structure GroupAdmitted (s t : State) (g : Group) : Prop where
  records : (t.region g.region).records = (s.region g.region).records + 1
  unresolved : t.log.unresolved =
    if (s.region g.region).records = 0 then s.log.unresolved + 1 else s.log.unresolved
  deferred : t.writer.deferred = none ∧ t.log.deferred = none
  builder : t.writer.builder = s.writer.builder
  wanted : t.log.anchorWanted = s.log.anchorWanted
  device : t.device = s.device
  dport : t.dport = s.dport
  stands : AnchorStands s t

theorem State.admitted_admitted (s : State) (g : Group) : GroupAdmitted s (s.admitted g) g := by
  unfold State.admitted
  obtain ⟨l, notices, e, unresolved, slot, anchorSeq, durableTail, wanted⟩ :=
    s.admitRecord_shape g.region (decide ((s.region g.region).records = 0)) g.lines.length
  extract_lets x p a b c
  have region : b.region g.region = { a.region g.region with
      records := (a.region g.region).records + 1
      firstIndex := if x.records = 0 then some p.1.index else (a.region g.region).firstIndex
      lastIndex := some p.1.index } := State.region_updRegion_self a g.region _
  have before : a.region g.region = s.region g.region := by
    show (s.admitRecord _ _ _).region g.region = _
    rw [e]
    rfl
  have log : b.log = l := by
    show (s.admitRecord _ _ _).log = l
    rw [e]
  have rest : c.writer.builder = s.writer.builder ∧ c.device = s.device ∧ c.dport = s.dport := by
    show (s.admitRecord _ _ _).writer.builder = _ ∧ (s.admitRecord _ _ _).device = _ ∧ (s.admitRecord _ _ _).dport = _
    rw [e]
    exact ⟨rfl, rfl, rfl⟩
  obtain ⟨builder, device, dport⟩ := rest
  rw [← log] at unresolved slot anchorSeq durableTail wanted
  refine ⟨?_, unresolved.trans (by simp), ⟨rfl, rfl⟩, builder, wanted, device, dport, slot, anchorSeq, durableTail,
    State.tag_congr dport⟩
  show (b.region g.region).records = _
  rw [region, before]

/-- A granted group: its build is taken by the idle builder with its old-line reads, or held while the builder is BUSY
(R69, R71). -/
structure GroupGranted (s t : State) (g : Group) : Prop where
  records : (t.region g.region).records = (s.region g.region).records + 1
  unresolved : t.log.unresolved =
    if (s.region g.region).records = 0 then s.log.unresolved + 1 else s.log.unresolved
  deferred : t.writer.deferred = none ∧ t.log.deferred = none
  taken : s.writer.builder = none → ∃ b x, t.writer.builder = some b ∧ b.group = some x ∧ x.members = g.members ∧
    t.dport.logQueue = s.dport.logQueue ++ g.lines.map fun l => readBlock .logWriter l.addr
  held : ∀ b, s.writer.builder = some b → t.writer.builder = some b ∧ ∃ b', t.writer.granted = some b' ∧ b'.group = some g
  wanted : t.log.anchorWanted = s.log.anchorWanted
  device : t.device = s.device
  stands : AnchorStands s t

theorem State.grant_granted (s : State) (g : Group) : GroupGranted s (s.grant g) g := by
  have k := s.admitted_admitted g
  have group : (s.grantBuild g).group = some g := rfl
  rw [State.grant_eq]
  generalize s.admitted g = u at k ⊢
  generalize s.grantBuild g = b at group ⊢
  obtain ⟨records, unresolved, deferred, builder, wanted, device, dport, stands⟩ := k
  have tags {t : State} (h : t.dport.tags = u.dport.tags) (q : DownTag) : t.tag q = u.tag q := by
    rw [State.tag, h]
    rfl
  cases hb : s.writer.builder with
  | none =>
    rw [builder, hb]
    refine ⟨records, unresolved, deferred, fun _ => ⟨_, _, rfl, congrArg (Option.map _) group, rfl, ?_⟩,
      fun _ h => absurd h (by simp [hb]), wanted, device, stands.trans ⟨rfl, rfl, rfl, tags rfl⟩⟩
    show u.dport.logQueue ++ _ = _
    rw [dport, group]
    simp [Function.comp_def]
  | some x =>
    rw [builder, hb]
    exact ⟨records, unresolved, deferred, fun h => absurd h (by simp [hb]),
      fun y h => ⟨builder.trans h, b, rfl, group⟩, wanted, device, stands.trans ⟨rfl, rfl, rfl, tags rfl⟩⟩

/-! ## The deferred admission tested again (R49) -/

namespace AnchorStands

theorem askAdmission (s : State) (g : Group) : AnchorStands s (s.askAdmission g) := by
  have defer (u : State) : AnchorStands u (u.defer g) := of_undeferred rfl rfl
  have leaves := (s.refuse_refused g).2
  unfold State.askAdmission
  split_ifs
  · exact (s.grant_granted g).stands
  · exact defer s
  · exact (startAnchor s _).trans (defer _)
  · exact of_undeferred leaves.log leaves.dport

theorem reevaluate (s : State) : AnchorStands s s.reevaluate := by
  unfold State.reevaluate
  split
  · exact askAdmission s _
  · exact refl s

end AnchorStands

/-- The part at the end of the event that verifies anchor write `a`, before what follows on it. -/
def State.anchorDone (s : State) (g : DownTag) (a : AnchorWrite) : State :=
  (((s.anchorIn g a).reevaluate).afterAnchor).anchorSequel a.purpose

/-- Whatever a verified anchor write brings about, its slot is current and its snapshot the durable tail (R52). -/
theorem State.anchorDone_adopts (s : State) (g : DownTag) (a : AnchorWrite) : (s.anchorDone g a).tag g = .free ∧
    (s.anchorDone g a).log.slot = some a.slot ∧ (s.anchorDone g a).log.anchorSeq = a.sequence ∧
    (s.anchorDone g a).log.durableTail = a.tail := by
  have k := s.anchorIn_anchorIn g a
  have stands : AnchorStands (s.anchorIn g a) (s.anchorDone g a) :=
    (AnchorStands.reevaluate _).trans ((AnchorStands.afterAnchor _).trans (AnchorStands.anchorSequel _ _))
  generalize s.anchorIn g a = v at k stands
  generalize s.anchorDone g a = t at stands ⊢
  obtain ⟨below, log⟩ := k.log
  refine ⟨(stands.tag g).trans k.tag, stands.slot.trans ?_, stands.anchorSeq.trans ?_, stands.durableTail.trans ?_⟩ <;>
    rw [log] <;> rfl

/-! ## What the start of an anchor write looks at (R52) -/

/-- The start of an anchor write finds the same in two states. -/
structure AnchorReady (s u : State) : Prop where
  geometry : u.log.geometry = s.log.geometry
  generation : u.log.generation = s.log.generation
  slot : u.log.slot = s.log.slot
  anchorSeq : u.log.anchorSeq = s.log.anchorSeq
  tail : u.log.volatileTail = s.log.volatileTail
  tailSeq : u.log.tailSeq = s.log.tailSeq
  msize : u.msize = s.msize
  queue : u.dport.anchorQueue = s.dport.anchorQueue

theorem AnchorReady.started {s u : State} {g : Geometry} (h : AnchorReady s u) (hg : s.log.geometry = some g)
    (p : AnchorPurpose) : AnchorStarted s (u.startAnchor p) p g := by
  obtain ⟨a, anchor, purpose, first, other, sequence, tail, tailSeq, attempts, queue⟩ :=
    (u.startAnchor_started p g (h.geometry.trans hg)).1
  rw [h.slot] at first other
  rw [h.anchorSeq] at sequence
  rw [h.tail] at tail
  rw [h.tailSeq] at tailSeq
  rw [h.queue, h.generation, State.memorySize, h.msize] at queue
  exact ⟨a, anchor, purpose, first, other, sequence, tail, tailSeq, attempts, queue⟩

/-- The verified anchor write as one update, up to the test of the deferred admission. -/
theorem State.anchorIn_eq (s : State) (g : DownTag) (a : AnchorWrite) : ∃ below notices, s.anchorIn g a =
    { s with
      log := { (s.anchored a).log with below := below }
      notices := notices
      dport := { s.dport with tags := s.dport.tags.set g.val .free }
      writer := { s.writer with held := Vector.ofFn fun r => (s.writer.held.get r).map fun h => { h with retryDue := true } } } := by
  obtain ⟨below, notices, e⟩ := ((s.setTag g .free).adoptAnchor a).noteFree_eq s.log.free
  refine ⟨below, notices, ?_⟩
  unfold State.anchorIn
  rw [e, State.spaceEvent_eq]
  rfl

/-- What the tests after a verified anchor write find, beside what `AnchorIn` says. -/
structure AnchorFree (s v : State) (a : AnchorWrite) : Prop where
  ready : AnchorReady (s.anchored a) v
  anchor : v.log.anchor = none
  durableTail : v.log.durableTail = a.tail
  wanted : v.log.anchorWanted = s.log.anchorWanted
  recovery : v.log.recoveryWanted = s.log.recoveryWanted
  held : ∀ q, v.writer.held.get q = (s.writer.held.get q).map fun h => { h with retryDue := true }
  params : v.params = s.params
  logQueue : v.dport.logQueue = s.dport.logQueue

theorem State.anchorIn_free (s : State) (g : DownTag) (a : AnchorWrite) : AnchorFree s (s.anchorIn g a) a := by
  obtain ⟨below, notices, e⟩ := s.anchorIn_eq g a
  rw [e]
  exact ⟨⟨rfl, rfl, rfl, rfl, rfl, rfl, rfl, rfl⟩, rfl, rfl, rfl, rfl, fun q => by simp [Vector.get_eq_getElem], rfl, rfl⟩

/-! ## The anchor that is wanted or waited for (R52, R53, R134) -/

theorem Keeps.afterAnchor (s : State) : Keeps [.log, .dport] s s.afterAnchor := by
  have upd (f : LogState → LogState) (h : (f s.log).formatDrain = s.log.formatDrain) : Keeps [.log, .dport] s (s.updLog f) :=
    (Keeps.updLog s h).mono (by decide)
  unfold State.afterAnchor
  split_ifs
  · exact (upd _ rfl).trans (.startAnchor _ _)
  · exact (upd _ rfl).trans (.strideTrigger _)
  · exact .refl _ s

theorem Keeps.anchorSequel (s : State) (p : AnchorPurpose) :
    Keeps [.device, .powerFail, .log, .dport, .notices] s (s.anchorSequel p) := by
  have powerFail (u : State) (f : PowerFail → PowerFail) : Keeps [.powerFail] u (u.updPowerFail f) :=
    ⟨fun p hp => by cases p <;> simp_all [Part.same], rfl, rfl, rfl⟩
  have device (d : DeviceState) : Keeps [.device, .powerFail, .log, .dport, .notices] s (s.setDevice d) :=
    (Keeps.setDevice s d).mono (by decide)
  obtain e | ⟨-, -, e⟩ | ⟨-, -, e⟩ | ⟨-, -, e⟩ | ⟨-, -, e⟩ := s.anchorSequel_cases p <;> rw [e]
  · exact .refl _ s
  · exact (device _).notice _ rfl
  · exact (Keeps.startAnchor s _).mono (by decide)
  · exact device _
  · exact (device _).trans ((powerFail _ _).mono (by decide))

/-- No anchor is wanted and none waited for. -/
theorem State.afterAnchor_none {s : State} (hr : s.log.recoveryWanted = true → s.device ≠ .restoring)
    (ha : s.log.anchorWanted = false) : s.afterAnchor = s := by
  unfold State.afterAnchor
  rw [if_neg (fun h => hr h.1 h.2), ha]
  rfl

/-- A recovery anchor is waited for (R134). -/
theorem State.afterAnchor_recovery {s : State} (hr : s.log.recoveryWanted = true) (hd : s.device = .restoring) :
    s.afterAnchor = (s.updLog fun l => { l with recoveryWanted := false, anchorWanted := false }).startAnchor .recovery :=
  if_pos ⟨hr, hd⟩

/-- In RUN a wanted anchor starts where the stride condition holds (R52, R53). -/
theorem State.afterAnchor_wanted {s : State} (hd : s.device = .run) (ha : s.log.anchorWanted = true) :
    s.afterAnchor = s.unwanted.strideTrigger := by
  unfold State.afterAnchor
  rw [if_neg (by simp [hd]), ha]
  rfl

end Sys2Proof.Machine
end

section
/-! SUPPORT. What a verified anchor write brings about, with and without a DEFERRED group, and the statement on the starts and
the ends of anchor writes. -/

namespace Sys2Proof.Machine

/-! ## Without a DEFERRED group (R50, R52, R53, R57, R134) -/

section
variable {s : State} {gt : DownTag} {a : AnchorWrite} {g : Geometry}

theorem State.anchorDone_undeferred (hd : s.writer.deferred = none) :
    s.anchorDone gt a = ((s.anchorIn gt a).afterAnchor).anchorSequel a.purpose := by
  have none : (s.anchorIn gt a).writer.deferred = none := (s.anchorIn_anchorIn gt a).deferred.trans hd
  have still : (s.anchorIn gt a).reevaluate = s.anchorIn gt a := by
    unfold State.reevaluate
    rw [none]
  unfold State.anchorDone
  rw [still]

theorem State.anchorDone_held (hd : s.writer.deferred = none) (q : RegionId) :
    (s.anchorDone gt a).writer.held.get q = (s.writer.held.get q).map fun h => { h with retryDue := true } := by
  have held := (s.anchorIn_free gt a).held q
  have after := Keeps.afterAnchor (s.anchorIn gt a)
  have sequel := Keeps.anchorSequel (s.anchorIn gt a).afterAnchor a.purpose
  have writer := (sequel.part .writer rfl).trans (after.part .writer rfl)
  rw [State.anchorDone_undeferred hd]
  exact (congrArg (fun w : LogWriter => w.held.get q) writer).trans held

/-- What the event changes up to the test of the deferred admission. -/
theorem Keeps.anchorIn (s : State) (gt : DownTag) (a : AnchorWrite) :
    Keeps [.log, .writer, .dport, .notices] s (s.anchorIn gt a) :=
  ((s.anchorIn_anchorIn gt a).asked 0).keeps.mono (by decide)

/-- With no anchor wanted, only the purpose's own sequel is left. -/
theorem State.anchorDone_unwanted (hd : s.writer.deferred = none) (hw : s.log.anchorWanted = false)
    (hr : s.log.recoveryWanted = false) : s.anchorDone gt a = (s.anchorIn gt a).anchorSequel a.purpose := by
  have k := s.anchorIn_free gt a
  rw [State.anchorDone_undeferred hd, State.afterAnchor_none (by simp [k.recovery, hr]) (k.wanted.trans hw)]

/-- A reclaiming anchor, and in QUIESCING every anchor but the closing one, has no sequel of its own (R53, R145). -/
theorem State.anchorDone_rests (hd : s.writer.deferred = none) (hw : s.log.anchorWanted = false)
    (hr : s.log.recoveryWanted = false) (hp : a.purpose = .reclaim ∨ s.device = .quiescing ∧ a.purpose ≠ .closing) :
    (s.anchorDone gt a).log.anchor = none ∧ Keeps [.log, .writer, .dport, .notices] s (s.anchorDone gt a) := by
  have device := (s.anchorIn_anchorIn gt a).device
  have rests : s.anchorDone gt a = s.anchorIn gt a := by
    rw [State.anchorDone_unwanted hd hw hr]
    obtain e | ⟨p, d, -⟩ | ⟨p, d, -⟩ | ⟨p, d, -⟩ | ⟨p, d, -⟩ := (s.anchorIn gt a).anchorSequel_cases a.purpose
    · exact e
    all_goals
      rw [device] at d
      simp [p, d] at hp
  rw [rests]
  exact ⟨(s.anchorIn_free gt a).anchor, .anchorIn s gt a⟩

/-- FORMAT's first anchor is followed by its second (R57). -/
theorem State.anchorDone_formatFirst (hg : s.log.geometry = some g) (hd : s.writer.deferred = none)
    (hw : s.log.anchorWanted = false) (hr : s.log.recoveryWanted = false) (hp : a.purpose = .formatFirst)
    (hf : s.device = .formatting) : AnchorStarted (s.anchored a) (s.anchorDone gt a) .formatSecond g ∧
      Keeps [.log, .writer, .dport, .notices] s (s.anchorDone gt a) := by
  have device := (s.anchorIn_anchorIn gt a).device.trans hf
  have next : s.anchorDone gt a = (s.anchorIn gt a).startAnchor .formatSecond := by
    rw [State.anchorDone_unwanted hd hw hr, hp]
    exact if_pos device
  rw [next]
  exact ⟨(s.anchorIn_free gt a).ready.started hg _,
    (Keeps.anchorIn s gt a).trans ((Keeps.startAnchor _ _).mono (by decide))⟩

/-- FORMAT's second anchor and the recovery anchor bring RUN, the latter with the end of start-up (R57, R134, R135). -/
theorem State.anchorDone_runs (hd : s.writer.deferred = none) (hw : s.log.anchorWanted = false)
    (hr : s.log.recoveryWanted = false)
    (hp : a.purpose = .formatSecond ∧ s.device = .formatting ∨ a.purpose = .recovery ∧ s.device = .restoring) :
    (s.anchorDone gt a).device = .run ∧ (s.anchorDone gt a).log.anchor = none ∧
      (a.purpose = .recovery → (s.anchorDone gt a).flag started = true) ∧
      Keeps [.device, .log, .writer, .dport, .notices] s (s.anchorDone gt a) := by
  have device := (s.anchorIn_anchorIn gt a).device
  have anchor := (s.anchorIn_free gt a).anchor
  have runs : Keeps [.device, .log, .writer, .dport, .notices] s ((s.anchorIn gt a).setDevice .run) :=
    ((Keeps.anchorIn s gt a).mono (by decide)).trans ((Keeps.setDevice _ _).mono (by decide))
  obtain ⟨p, d⟩ | ⟨p, d⟩ := hp
  · have next : s.anchorDone gt a = (s.anchorIn gt a).setDevice .run := by
      rw [State.anchorDone_unwanted hd hw hr, p]
      exact if_pos (device.trans d)
    rw [next]
    exact ⟨rfl, anchor, fun h => absurd (p.symm.trans h) (by decide), runs⟩
  · have next : s.anchorDone gt a = ((s.anchorIn gt a).setDevice .run).endStartup := by
      rw [State.anchorDone_unwanted hd hw hr, p]
      exact if_pos (device.trans d)
    rw [next]
    exact ⟨rfl, anchor, fun _ => State.flag_setNotice_self _ started, runs.notice started rfl⟩

/-- A recovery anchor that waited for a reclaiming one starts (R134). -/
theorem State.anchorDone_recovery (hg : s.log.geometry = some g) (hd : s.writer.deferred = none) (hp : a.purpose = .reclaim)
    (hr : s.device = .restoring) (hw : s.log.recoveryWanted = true) :
    AnchorStarted (s.anchored a) (s.anchorDone gt a) .recovery g ∧ (s.anchorDone gt a).log.recoveryWanted = false ∧
      (s.anchorDone gt a).log.anchorWanted = false := by
  have free := s.anchorIn_free gt a
  have device := (s.anchorIn_anchorIn gt a).device.trans hr
  have next : s.anchorDone gt a = ((s.anchorIn gt a).updLog fun l =>
      { l with recoveryWanted := false, anchorWanted := false }).startAnchor .recovery := by
    rw [State.anchorDone_undeferred hd, State.afterAnchor_recovery (free.recovery.trans hw) device, hp]
    rfl
  obtain ⟨geometry, generation, slot, anchorSeq, tail, tailSeq, msize, queue⟩ := free.ready
  rw [next]
  generalize s.anchorIn gt a = v at *
  have ready : AnchorReady (s.anchored a) (v.updLog fun l => { l with recoveryWanted := false, anchorWanted := false }) :=
    ⟨geometry, generation, slot, anchorSeq, tail, tailSeq, msize, queue⟩
  obtain ⟨x, q, e, -⟩ := (v.updLog fun l => { l with recoveryWanted := false, anchorWanted := false }).startAnchor_shape .recovery
  refine ⟨ready.started hg _, ?_, ?_⟩ <;> rw [e] <;> rfl

/-- A wanted anchor starts in RUN where the stride condition holds (R52, R53). -/
theorem State.anchorDone_wanted (hg : s.log.geometry = some g) (hd : s.writer.deferred = none) (hp : a.purpose = .reclaim)
    (hr : s.device = .run) (hw : s.log.anchorWanted = true) : (s.anchorDone gt a).log.anchorWanted = false ∧
      let distance := ringDistance g.blocks a.tail s.log.volatileTail
      (0 < distance → s.params.anchorStride ≤ distance → AnchorStarted (s.anchored a) (s.anchorDone gt a) .reclaim g) ∧
      (distance = 0 ∨ distance < s.params.anchorStride → (s.anchorDone gt a).log.anchor = none) := by
  have free := s.anchorIn_free gt a
  have device := (s.anchorIn_anchorIn gt a).device.trans hr
  have next : s.anchorDone gt a = (s.anchorIn gt a).unwanted.strideTrigger := by
    rw [State.anchorDone_undeferred hd, State.afterAnchor_wanted device (free.wanted.trans hw), hp]
    rfl
  rw [next]
  generalize s.anchorIn gt a = v at *
  obtain ⟨geometry, generation, slot, anchorSeq, tail, tailSeq, msize, queue⟩ := free.ready
  have ready : AnchorReady (s.anchored a) v.unwanted :=
    ⟨geometry, generation, slot, anchorSeq, tail, tailSeq, msize, queue⟩
  have distance : ringDistance v.unwanted.log.ring v.unwanted.log.durableTail v.unwanted.log.volatileTail =
      ringDistance g.blocks a.tail s.log.volatileTail := by
    have ring : v.unwanted.log.ring = g.blocks := by
      rw [LogState.ring, ready.geometry.trans hg]
    rw [ring]
    exact congrArg₂ (ringDistance g.blocks) free.durableTail tail
  have due : v.unwanted.strideDue = true ↔ 0 < ringDistance g.blocks a.tail s.log.volatileTail ∧
      s.params.anchorStride ≤ ringDistance g.blocks a.tail s.log.volatileTail := by
    rw [State.strideDue_iff (s := v.unwanted) (.inl device), distance, ← free.params]
    rfl
  obtain ⟨h, e⟩ | ⟨h, ⟨⟨x, hx⟩, -⟩ | ⟨-, e⟩⟩ := v.unwanted.strideTrigger_cases
  · rw [e]
    exact ⟨rfl, fun h1 h2 => absurd (due.mpr ⟨h1, h2⟩) (by simp [h]), fun _ => free.anchor⟩
  · exact absurd (free.anchor.symm.trans hx) (by simp)
  · obtain ⟨h1, h2⟩ := due.mp h
    obtain ⟨x, q, k, -⟩ := v.unwanted.startAnchor_shape .reclaim
    refine ⟨?_, fun _ _ => by rw [e]; exact ready.started hg _, fun h => by omega⟩
    rw [e, k]
    rfl

/-! ## With a DEFERRED group (R49, R69) -/

/-- In RUN, with no anchor wanted, the deferred admission's answer is all that follows a reclaiming anchor. -/
theorem State.anchorDone_deferred {grp : Group} (hd : s.writer.deferred = some grp) (hp : a.purpose = .reclaim)
    (device : ((s.anchorIn gt a).askAdmission grp).device = .run)
    (wanted : ((s.anchorIn gt a).askAdmission grp).log.anchorWanted = false) :
    s.anchorDone gt a = (s.anchorIn gt a).askAdmission grp := by
  have asks := State.reevaluate_deferred ((s.anchorIn_anchorIn gt a).deferred.trans hd)
  unfold State.anchorDone
  rw [asks, State.afterAnchor_none (fun _ => by rw [device]; decide) wanted, hp]
  rfl

theorem State.admits_anchorIn (s : State) (gt : DownTag) (a : AnchorWrite) (grp : Group) :
    (s.anchorIn gt a).log.admits (decide (((s.anchorIn gt a).region grp.region).records = 0)) grp.lines.length =
      (s.anchored a).log.admits (decide ((s.region grp.region).records = 0)) grp.lines.length := by
  have k := s.anchorIn_anchorIn gt a
  obtain ⟨below, log⟩ := k.log
  rw [log, k.records]
  rfl

/-- The DEFERRED group is granted (R48, R79). -/
theorem State.anchorDone_granted {grp : Group} (hd : s.writer.deferred = some grp) (hp : a.purpose = .reclaim)
    (hr : s.device = .run) (hw : s.log.anchorWanted = false)
    (ha : (s.anchored a).log.admits (decide ((s.region grp.region).records = 0)) grp.lines.length = true) :
    GroupGranted (s.anchorIn gt a) (s.anchorDone gt a) grp := by
  have grant : (s.anchorIn gt a).askAdmission grp = (s.anchorIn gt a).grant grp :=
    if_pos ((s.admits_anchorIn gt a grp).trans ha)
  have k := (s.anchorIn gt a).grant_granted grp
  rw [← grant] at k
  rwa [State.anchorDone_deferred hd hp (k.device.trans ((s.anchorIn_anchorIn gt a).device.trans hr))
    (k.wanted.trans ((s.anchorIn_free gt a).wanted.trans hw))]

/-- The DEFERRED group is deferred again, behind another anchor write (R49). -/
theorem State.anchorDone_defers {grp : Group} (hg : s.log.geometry = some g) (hd : s.writer.deferred = some grp)
    (hp : a.purpose = .reclaim) (hr : s.device = .run) (hw : s.log.anchorWanted = false)
    (ha : (s.anchored a).log.admits (decide ((s.region grp.region).records = 0)) grp.lines.length = false)
    (ht : a.tail ≠ s.log.volatileTail) : (s.anchorDone gt a).writer.deferred = some grp ∧
      (s.anchorDone gt a).log.deferred = some ⟨grp.region, grp.lines.length⟩ ∧
      AnchorStarted (s.anchored a) (s.anchorDone gt a) .reclaim g := by
  have free := s.anchorIn_free gt a
  have device := (s.anchorIn_anchorIn gt a).device.trans hr
  have admits := (s.admits_anchorIn gt a grp).trans ha
  have done := State.anchorDone_deferred (gt := gt) hd hp
  generalize s.anchorIn gt a = v at *
  have tails : v.log.volatileTail ≠ v.log.durableTail := by
    rw [free.durableTail]
    exact fun h => ht (h.symm.trans free.ready.tail)
  have defers : v.askAdmission grp = (v.startAnchor .reclaim).defer grp := by
    unfold State.askAdmission
    rw [admits, free.anchor]
    exact if_pos tails
  have started := free.ready.started hg .reclaim
  obtain ⟨x, q, e, -⟩ := v.startAnchor_shape .reclaim
  rw [defers] at done
  generalize v.startAnchor .reclaim = w at started e done
  rw [done (by rw [e]; exact device) (by rw [e]; exact free.wanted.trans hw)]
  exact ⟨rfl, rfl, started⟩

end

/-- Settles O48: the starts, the sequels of a verified anchor write, and a failed attempt, each by the lemma on it. -/
theorem formatAndRecoveryAnchorsStart : Obligations.FormatAndRecoveryAnchorsStart := by
  intro g s hi hg
  refine ⟨fun hd hp hf => ?_, fun h => ?_, fun hd hq hw => ?_, fun h => ?_, fun gt d a hv => ?_, fun gt d a hf => ?_⟩
  · obtain ⟨started, begun, keeps⟩ := State.formatAnchors_begin hg
    refine ⟨_, congrArg Host.Outcome.next ((State.unlessReset_acts hi _).trans ?_), started, begun, keeps⟩
    exact s.beginFormatAnchors_eq.trans (if_pos ⟨hd, hp, hf⟩)
  · refine congrArg Host.Outcome.next ((State.unlessReset_acts hi _).trans ?_)
    refine s.beginFormatAnchors_eq.trans (if_neg fun ⟨hd, hp, hf⟩ => ?_)
    simp [hd, hp, hf] at h
  · have recovered := s.recovered_iff.mpr ⟨hd, hq, hw⟩
    refine ⟨fun ha => ?_, fun a ha hp => State.recovery_waits hi recovered ha hp⟩
    obtain ⟨acts, follows, started⟩ := State.recovery_starts hi hg recovered ha
    exact ⟨_, acts, follows, started, .startAnchor s _⟩
  · refine congrArg Host.Outcome.next ((State.unlessReset_acts hi _).trans (if_neg fun hr => ?_))
    obtain ⟨hd, hq, hw⟩ := s.recovered_iff.mp hr
    simp [hd, hq, hw] at h
  · obtain ⟨tag, slot, anchorSeq, durableTail⟩ := s.anchorDone_adopts gt a
    refine ⟨s.anchorDone gt a, State.respond_verified hi hv, tag, slot, anchorSeq, durableTail, fun hd => ?_,
      fun grp hd hp hr hw => ⟨fun ha => ?_, fun ha ht => State.anchorDone_defers hg hd hp hr hw ha ht⟩⟩
    · exact ⟨State.anchorDone_held hd, fun hw hr => ⟨fun hp => State.anchorDone_rests hd hw hr hp,
        fun hp hf => State.anchorDone_formatFirst hg hd hw hr hp hf, fun hp => State.anchorDone_runs hd hw hr hp⟩,
        fun hp hr hw => State.anchorDone_recovery hg hd hp hr hw, fun hp hr hw => State.anchorDone_wanted hg hd hp hr hw⟩
    · have k := State.anchorDone_granted (gt := gt) hd hp hr hw ha
      have before := s.anchorIn_anchorIn gt a
      have builder := (before.asked 0).builder
      have queue := (s.anchorIn_free gt a).logQueue
      have records := before.records grp.region
      obtain ⟨below, log⟩ := before.log
      have unresolved : (s.anchorIn gt a).log.unresolved = s.log.unresolved := by rw [log]; rfl
      refine ⟨k.deferred.1, k.deferred.2, k.records.trans (by rw [records]), ?_, fun h => ?_, fun b h => ?_⟩
      · rw [k.unresolved, records, unresolved]
        simp
      · rw [← queue]
        exact k.taken (builder.trans h)
      · exact k.held b (builder.trans h)
  · have acts := State.anchor_fails (d := d) hi hf
    refine ⟨fun h => ?_, fun h => ?_⟩
    · rw [if_pos h] at acts
      exact ⟨_, acts, rfl, rfl, ((Keeps.updDport s _).mono (by decide)).trans
        (((Keeps.updLog _ rfl).mono (by decide)).trans ((Keeps.updDport _ _).mono (by decide)))⟩
    · rw [if_neg (by omega)] at acts
      have k := s.anchorExhausted_exhausted gt a
      obtain ⟨anchor, slot, anchorSeq, durableTail⟩ := k.anchors
      exact ⟨_, acts, anchor, slot, anchorSeq, durableTail, k.flag, k.faults, k.enters, k.starts, k.keeps, k.stays⟩

end Sys2Proof.Machine
end

section
/-! SUPPORT. The end of the forward scan: the log and the regions it loads, and the statement's `ScanEnded` (R127, R129, R130). -/

namespace Sys2Proof.Machine

/-! ## What the scan loads (R127, R129) -/

/-- A fold that updates distinct places of a vector, each in its own way, updates each of them once. -/
theorem get_foldl_set_at {α : Type} {n : Nat} (f : Fin n → α → α) (l : List (Fin n)) (hl : l.Nodup) (v : Vector α n)
    (i : Fin n) : (l.foldl (fun v k => v.set k.val (f k (v.get k))) v).get i = if i ∈ l then f i (v.get i) else v.get i := by
  induction l generalizing v with
  | nil => simp
  | cons k l ih =>
    obtain ⟨hk, hl⟩ := List.nodup_cons.mp hl
    rw [List.foldl_cons, ih hl]
    by_cases h : i = k
    · subst h
      simp [hk, get_set_self]
    · simp [h, get_set_other v h]

theorem foldl_regions_eq {α : Type} (f : RegionId → α → α) (v : Vector α 8) :
    allRegions.foldl (fun v k => v.set k.val (f k (v.get k))) v = Vector.ofFn fun r => f r (v.get r) := by
  ext i hi
  have := get_foldl_set_at f allRegions allRegions_nodup v ⟨i, hi⟩
  simpa [mem_allRegions, Vector.get_eq_getElem] using this

/-- The volatile tail and tail sequence that the scan loads (R127). -/
def State.scanTail (s : State) : Nat × Word32 :=
  match s.candidateFirsts with
  | [] => (s.startup.position, s.startup.expected)
  | x :: rest => rest.foldl (earlier s.log.ring s.log.durableTail) x

/-- The log as the scan loads it (R127), its space level with it (R54). -/
def State.scannedLog (s : State) : LogState :=
  let l := { s.log with
    head := s.startup.position, nextSeq := s.startup.expected, unresolved := s.candidateFirsts.length,
    firstSeqs := Vector.ofFn fun r => (s.candidate r).map Candidate.firstSeq, volatileTail := s.scanTail.1,
    tailSeq := s.scanTail.2 }
  { l with below := decide (l.free < s.params.spaceWatermark) }

theorem State.loadScan_eq (s : State) : s.loadScan = { s with log := s.scannedLog } := by
  have fold : ∀ (l : List RegionId) (u : State), u.startup = s.startup → l.foldl (fun u r => u.updLog fun x =>
      { x with firstSeqs := x.firstSeqs.set r.val ((u.candidate r).map Candidate.firstSeq) }) u =
      u.updLog fun x =>
        { x with firstSeqs := l.foldl (fun v k => v.set k.val ((s.candidate k).map Candidate.firstSeq)) x.firstSeqs } := by
    intro l
    induction l with
    | nil => exact fun u _ => rfl
    | cons r l ih =>
      intro u hu
      have same : u.candidate r = s.candidate r := by rw [State.candidate, hu]; rfl
      refine (ih (u.updLog fun x =>
        { x with firstSeqs := x.firstSeqs.set r.val ((u.candidate r).map Candidate.firstSeq) }) hu).trans ?_
      rw [same]
      rfl
  unfold State.loadScan
  dsimp only
  have firsts := foldl_regions_eq (fun r _ => (s.candidate r).map Candidate.firstSeq) s.log.firstSeqs
  rw [fold allRegions s rfl]
  unfold State.scannedLog
  rw [← firsts]
  rfl

/-- A region's context as the scan sets it from its tracker (R129). -/
def Tracker.context (t : Tracker) (txn : TxnState) (sub : SubState) (x : Region) : Region :=
  match t.candidate with
  | some c =>
    { x with number := c.number, records := c.records, firstIndex := some c.firstIndex, lastIndex := some c.lastIndex,
             saturated := false, age := 0, txn := txn, sub := sub }
  | none =>
    { x with number := (match t.seen with
                        | some n => nextNumber n
                        | none => 1),
             txn := .idle, records := 0, firstIndex := none, lastIndex := none, saturated := false, age := 0,
             sub := .none, drain := [], recordPhase := false, expiryDue := false }

theorem State.setFromTracker_eq (s : State) (txn : TxnState) (sub : SubState) (r : RegionId) :
    s.setFromTracker txn sub r = s.updRegion r ((s.startup.trackers.get r).context txn sub) := rfl

theorem State.setFromTrackers_eq (s : State) (txn : TxnState) (sub : SubState) :
    allRegions.foldl (State.setFromTracker · txn sub ·) s =
      { s with regions := Vector.ofFn fun r => (s.startup.trackers.get r).context txn sub (s.region r) } := by
  have fold : ∀ (l : List RegionId) (u : State), u.startup = s.startup → l.foldl (State.setFromTracker · txn sub ·) u =
      { u with
        regions := l.foldl (fun v k => v.set k.val ((s.startup.trackers.get k).context txn sub (v.get k))) u.regions } := by
    intro l
    induction l with
    | nil => exact fun u _ => rfl
    | cons r l ih =>
      intro u hu
      refine (ih (u.setFromTracker txn sub r) hu).trans ?_
      rw [State.setFromTracker_eq, congrArg Startup.trackers hu]
      rfl
  rw [fold allRegions s rfl, foldl_regions_eq fun r => (s.startup.trackers.get r).context txn sub]
  rfl

/-- The end of the scan at its position, as one update (R127, R129, R130). -/
theorem State.scanEnd_eq (s : State) : s.scanEnd =
    { s with
      device := .restoring
      log := s.scannedLog
      regions := Vector.ofFn fun r => (s.startup.trackers.get r).context .rollingBack .queued (s.region r)
      engine := { s.engine with queue := s.engine.queue ++ s.candidateRegions } } := by
  unfold State.scanEnd
  dsimp only
  rw [State.loadScan_eq, State.setFromTrackers_eq]
  rfl

/-! ## The tail (R127) -/

theorem State.mem_candidateFirsts (s : State) (x : Nat × Word32) :
    x ∈ s.candidateFirsts ↔ ∃ r c, (s.startup.trackers.get r).candidate = some c ∧ (c.firstIndex, c.firstSeq) = x := by
  simp [State.candidateFirsts, State.candidate, mem_allRegions]

theorem State.scanTail_empty {s : State} (h : ∀ r, (s.startup.trackers.get r).candidate = none) :
    s.scanTail = (s.startup.position, s.startup.expected) := by
  have none : s.candidateFirsts = [] := by
    refine List.eq_nil_iff_forall_not_mem.mpr fun x hx => ?_
    obtain ⟨r, c, hc, -⟩ := (s.mem_candidateFirsts x).mp hx
    rw [h r] at hc
    cases hc
  unfold State.scanTail
  rw [none]

theorem State.scanTail_earliest {s : State} {r : RegionId} {c : Candidate}
    (h : (s.startup.trackers.get r).candidate = some c) : ∃ r' c', (s.startup.trackers.get r').candidate = some c' ∧
      s.scanTail.1 = c'.firstIndex ∧ s.scanTail.2 = c'.firstSeq ∧
      ringDistance s.log.ring s.log.durableTail c'.firstIndex ≤ ringDistance s.log.ring s.log.durableTail c.firstIndex := by
  have mem : (c.firstIndex, c.firstSeq) ∈ s.candidateFirsts := (s.mem_candidateFirsts _).mpr ⟨r, c, h, rfl⟩
  cases hf : s.candidateFirsts with
  | nil => rw [hf] at mem; cases mem
  | cons x rest =>
    have e : s.scanTail = rest.foldl (earlier s.log.ring s.log.durableTail) x := by
      unfold State.scanTail
      rw [hf]
    obtain ⟨chosen, least⟩ := foldl_earlier s.log.ring s.log.durableTail rest x
    rw [← e, ← hf] at chosen least
    obtain ⟨r', c', hc, k⟩ := (s.mem_candidateFirsts _).mp chosen
    have least := least _ mem
    rw [← k] at least ⊢
    exact ⟨r', c', hc, rfl, rfl, least⟩

/-- The unresolved first records are counted by the trackers that hold a candidate. -/
theorem State.length_candidateFirsts (s : State) :
    s.candidateFirsts.length = allRegions.countP fun r => (s.startup.trackers.get r).candidate.isSome := by
  unfold State.candidateFirsts State.candidate
  induction allRegions with
  | nil => rfl
  | cons r l ih =>
    rw [List.filterMap_cons, List.countP_cons, ← ih]
    cases (s.startup.trackers.get r).candidate <;> simp

/-! ## The head found (R127, R129, R130) -/

theorem State.scanEnd_ended (s : State) : ScanEnded s s.scanEnd s.startup.position s.startup.expected s.startup.trackers := by
  have region (r : RegionId) : s.scanEnd.region r =
      (s.startup.trackers.get r).context .rollingBack .queued (s.region r) := by
    rw [State.scanEnd_eq]
    exact s.region_ofFn _ r
  rw [State.scanEnd_eq] at region ⊢
  refine ⟨rfl, ⟨rfl, rfl⟩, s.length_candidateFirsts, fun r => ?_, fun h => ?_, fun r c h => s.scanTail_earliest h, ?_,
    fun r c h => ?_, fun r h => ?_, rfl, ?_⟩
  · simp [State.scannedLog, State.candidate, Vector.get_eq_getElem]
  · exact ⟨congrArg Prod.fst (State.scanTail_empty h), congrArg Prod.snd (State.scanTail_empty h)⟩
  · exact decide_eq_true_iff
  · rw [region, Tracker.context, h]
  · rw [region, Tracker.context, h]
    rfl
  · exact ⟨fun p hp => by cases p <;> simp_all [Part.same], rfl, rfl, rfl⟩

end Sys2Proof.Machine
end

section
/-! SUPPORT. The forward scan at a position: the marker, the header and the data blocks judged, the record met by its region's
tracker, and the scan moved on (R123 to R126). -/

namespace Sys2Proof.Machine

/-! ## Where the scan stands -/

/-- `s` with another state of the scan and of the downstream port. -/
def State.withScan (s : State) (x : Startup) (port : Downstream) : State := { s with startup := x, dport := port }

theorem Keeps.withScan (s : State) (x : Startup) (port : Downstream) : Keeps [.startup, .dport] s (s.withScan x port) :=
  ⟨fun p hp => by cases p <;> simp_all [Part.same, State.withScan, State.region], rfl, rfl, rfl⟩

/-- The head found says nothing of the scan that was left, nor of the port. -/
theorem ScanEnded.of_withScan {s t : State} {x : Startup} {port : Downstream} {head : Nat} {seq : Word32}
    {trackers : Vector Tracker 8} (h : ScanEnded (s.withScan x port) t head seq trackers) :
    ScanEnded s t head seq trackers :=
  { h with kept := ((Keeps.withScan s x port).mono (by decide)).trans h.kept }

theorem State.scanEnd_withScan (s : State) (x : Startup) (port : Downstream) :
    ScanEnded s (s.withScan x port).scanEnd x.position x.expected x.trackers :=
  (State.scanEnd_ended (s.withScan x port)).of_withScan

/-- Further reads at the scan position have been handed (R123). -/
structure ReadsHanded (s t : State) (from_ count : Nat) : Prop where
  queue : t.dport.rollQueue = s.dport.rollQueue ++
    (List.range count).map (fun i => readBlock .startup (s.blockAddr (s.startup.position + from_ + i)))
  startup : t.startup = { s.startup with blocks := t.startup.blocks }
  kept : Keeps [.startup, .dport] s t

/-- A scan whose distance leaves room for a record reads the block at its position (R123). -/
theorem State.scanHere_reads {s : State} (h : s.startup.distance + 1 ≠ s.log.ring) : s.scanHere =
    (s.updStartup fun u => { u with blocks := [⟨1, none⟩] }).handRoll
      [readBlock .startup (s.blockAddr s.startup.position)] := by
  unfold State.scanHere State.scanReads
  rw [if_neg h]

theorem State.scanHere_ends {s : State} (h : s.startup.distance + 1 = s.log.ring) : s.scanHere = s.scanEnd := by
  unfold State.scanHere State.scanReads
  rw [if_pos h]

theorem State.scanHere_at (s : State) {x : Startup} {port : Downstream} (hx : x.slots = s.startup.slots)
    (hq : port.rollQueue = s.dport.rollQueue) :
    ScanAt s (s.withScan x port).scanHere x.position x.distance x.expected x.trackers := by
  refine ⟨fun h => ?_, fun h => ?_⟩
  · rw [State.scanHere_reads (s := s.withScan x port) h]
    exact ⟨congrArg (fun slots => { x with slots := slots, blocks := [⟨1, none⟩] }) hx, congrArg (· ++ _) hq,
      Keeps.withScan s _ _⟩
  · rw [State.scanHere_ends (s := s.withScan x port) h]
    exact s.scanEnd_withScan x port

/-! ## The tests of Table 6-4 -/

theorem State.wrapValid_iff (s : State) (b : Line) :
    s.wrapValid s.startup.position s.startup.distance b = true ↔ WrapPasses s s.startup.position b := by
  simp only [State.wrapValid, WrapPasses, Bool.and_eq_true, beq_iff_eq, decide_eq_true_eq, and_assoc]
  refine and_congr_right fun _ => and_congr_right fun _ => and_congr_right fun _ => ?_
  omega

theorem State.linksValid_iff (s : State) (p : Nat) (h : Header) : s.linksValid p h = true ↔
    (h.kind = 1 → h.first = true → h.firstIndex = p ∧ h.previous = 0xFFFFFFFF) ∧
      (h.kind = 1 → h.first = false → h.firstIndex < s.log.ring ∧ h.previous < s.log.ring) ∧
      (h.kind ≠ 1 → h.previous = 0xFFFFFFFF ∧ h.firstIndex < s.log.ring ∧ h.dataCrc = 0) := by
  have undo : RecordKind.undo.code = 1 := rfl
  unfold State.linksValid
  rw [undo]
  by_cases hk : h.kind = 1
  · cases hf : h.first <;> simp [hk, none32]
  · simp [hk, none32, and_assoc]

theorem State.scanHeaderValid_iff (s : State) (h : Header) :
    s.scanHeaderValid s.startup.position s.startup.distance h = true ↔ HeaderPasses s s.startup.position h := by
  have undo : RecordKind.undo.code = 1 := rfl
  have abort : RecordKind.abort.code = 3 := rfl
  have count : (if h.kind = 1 then decide (1 ≤ h.count) && decide (h.count ≤ 8) else h.count == 0) = true ↔
      h.kind = 1 ∧ 1 ≤ h.count ∧ h.count ≤ 8 ∨ h.kind ≠ 1 ∧ h.count = 0 := by
    by_cases hk : h.kind = 1 <;> simp [hk]
  have flags (a b : Bool) : (!a || b) = true ↔ (a = true → b = true) := by cases a <;> simp
  simp only [State.scanHeaderValid, undo, abort, Bool.and_eq_true, beq_iff_eq, decide_eq_true_eq, count, flags,
    s.linksValid_iff]
  constructor
  · rintro ⟨⟨⟨⟨⟨⟨⟨⟨⟨crc, sequence⟩, generation⟩, identity⟩, counts⟩, fits⟩, room⟩, first⟩, recovery⟩, starts, later, closing⟩
    exact ⟨crc, ⟨sequence, generation⟩, identity, counts, ⟨fits, by omega⟩, ⟨first, recovery⟩, starts, later, closing⟩
  · rintro ⟨crc, ⟨sequence, generation⟩, identity, counts, ⟨fits, room⟩, ⟨first, recovery⟩, starts, later, closing⟩
    exact ⟨⟨⟨⟨⟨⟨⟨⟨⟨crc, sequence⟩, generation⟩, identity⟩, counts⟩, fits⟩, by omega⟩, first⟩, recovery⟩, starts, later,
      closing⟩

/-! ## The agreement of Table 6-5 -/

/-- The tracker's meeting with a record is the agreement of Table 6-5. -/
theorem Tracker.meet_iff (p : Nat) (h : Header) (x y : Tracker) : x.meet p h = some y ↔ Agrees p h x y := by
  have undo : RecordKind.undo.code = 1 := rfl
  constructor
  · obtain ⟨seen, candidate⟩ := x
    intro k
    unfold Tracker.meet at k
    rw [undo] at k
    by_cases hk : h.kind = 1
    · rw [if_pos hk] at k
      obtain - | c := candidate
      · cases hf : h.first <;> simp only [hf] at k <;> obtain rfl := Option.some.inj k
        · exact .follows seen fun _ => hf
        · exact .opens seen hk hf
      · dsimp only at k
        split_ifs at k with test
        obtain rfl := Option.some.inj k
        simp only [Bool.and_eq_true, Bool.not_eq_true', beq_iff_eq] at test
        obtain ⟨⟨⟨first, number⟩, previous⟩, index⟩ := test
        exact .continues seen c hk first number previous index
    · rw [if_neg hk] at k
      obtain - | c := candidate
      · obtain rfl := Option.some.inj k
        exact .follows seen fun k => absurd k hk
      · dsimp only at k
        split_ifs at k with test
        obtain rfl := Option.some.inj k
        simp only [Bool.and_eq_true, beq_iff_eq] at test
        exact .closes seen c hk test.1 test.2
  · rintro (⟨seen, hk, hf⟩ | ⟨seen, c, hk, hf, number, previous, index⟩ | ⟨seen, c, hk, number, index⟩ | ⟨seen, hf⟩)
    · simp [Tracker.meet, undo, hk, hf]
    · simp [Tracker.meet, undo, hk, hf, number, previous, index]
    · simp [Tracker.meet, undo, hk, number, index]
    · by_cases hk : h.kind = 1 <;> simp [Tracker.meet, undo, hk, hf]

/-! ## A block judged (R123 to R126) -/

/-- `s` with the scan's blocks as given. -/
def State.withBlocks (s : State) (blocks : List BlockRead) (port : Downstream) : State :=
  s.withScan { s.startup with blocks := blocks } port

section
variable {s : State} {blocks : List BlockRead} {port : Downstream} (hq : port.rollQueue = s.dport.rollQueue)
include hq

theorem State.scanRecord_judged {h : Header} {r : RegionId} (hr : h.region = r.val) :
    RecordJudged s ((s.withBlocks blocks port).scanRecord s.startup.position h) h r (2 + h.count) := by
  have lt : h.region < 8 := by omega
  have region : (⟨h.region, lt⟩ : RegionId) = r := Fin.ext hr
  have meets : (s.withBlocks blocks port).scanRecord s.startup.position h =
      match (s.startup.trackers.get r).meet s.startup.position h with
      | some t => ((s.withBlocks blocks port).updStartup fun u => { u with trackers := u.trackers.set r.val t }).scanOn
          (2 + h.count) (s.scanNext s.startup.position (2 + h.count))
      | none => (s.withBlocks blocks port).scanEnd := by
    subst region
    unfold State.scanRecord
    rw [dif_pos lt]
    rfl
  refine ⟨fun y hy => ?_, fun hn => ?_⟩
  · rw [meets, (Tracker.meet_iff ..).mpr hy]
    exact s.scanHere_at (x := { s.startup with
      position := s.scanNext s.startup.position (2 + h.count), distance := s.startup.distance + (2 + h.count),
      expected := s.startup.expected + 1, trackers := s.startup.trackers.set r.val y, blocks := [] }) rfl hq
  · have none : (s.startup.trackers.get r).meet s.startup.position h = none :=
      Option.eq_none_iff_forall_ne_some.mpr fun y k => hn y ((Tracker.meet_iff ..).mp k)
    rw [meets, none]
    exact s.scanEnd_withScan _ port

theorem State.scanRead_handed (from_ count : Nat) :
    ReadsHanded s ((s.withBlocks blocks port).scanRead s.startup.position from_ count) from_ count :=
  ⟨congrArg (· ++ _) hq, rfl, Keeps.withScan s _ _⟩

omit hq in
theorem State.scanEnd_withBlocks :
    ScanEnded s (s.withBlocks blocks port).scanEnd s.startup.position s.startup.expected s.startup.trackers :=
  s.scanEnd_withScan _ port

/-- The first block is a WRAP marker (R123, R125). -/
theorem State.scanFirst_marker {d : Line} (hk : blockKind d = 4) :
    (WrapPasses s s.startup.position d → ScanAt s ((s.withBlocks blocks port).scanFirst d) 0
      (s.startup.distance + (s.log.ring - s.startup.position)) (s.startup.expected + 1) s.startup.trackers) ∧
    (¬WrapPasses s s.startup.position d → ScanEnded s ((s.withBlocks blocks port).scanFirst d) s.startup.position
      s.startup.expected s.startup.trackers) := by
  have judged : (s.withBlocks blocks port).scanFirst d =
      if s.wrapValid s.startup.position s.startup.distance d then
        (s.withBlocks blocks port).scanOn (s.log.ring - s.startup.position) 0
      else (s.withBlocks blocks port).scanEnd := if_pos hk
  rw [judged]
  refine ⟨fun h => ?_, fun h => ?_⟩
  · rw [if_pos ((s.wrapValid_iff d).mpr h)]
    exact s.scanHere_at (x := { s.startup with
      position := 0, distance := s.startup.distance + (s.log.ring - s.startup.position),
      expected := s.startup.expected + 1, blocks := [] }) rfl hq
  · rw [if_neg (mt (s.wrapValid_iff d).mp h)]
    exact State.scanEnd_withBlocks

/-- The first block is a record's (R123). -/
theorem State.scanFirst_record {d : Line} (hk : blockKind d = 1 ∨ blockKind d = 2 ∨ blockKind d = 3) :
    (s.startup.position + 1 = s.log.ring → ScanEnded s ((s.withBlocks blocks port).scanFirst d) s.startup.position
      s.startup.expected s.startup.trackers) ∧
    (s.startup.position + 1 ≠ s.log.ring → ReadsHanded s ((s.withBlocks blocks port).scanFirst d) 1 1) := by
  have judged : (s.withBlocks blocks port).scanFirst d =
      if s.startup.position + 1 = s.log.ring then (s.withBlocks blocks port).scanEnd
      else (s.withBlocks blocks port).scanRead s.startup.position 1 1 := by
    unfold State.scanFirst
    exact (if_neg (by omega)).trans (if_pos hk)
  rw [judged]
  refine ⟨fun h => ?_, fun h => ?_⟩
  · rw [if_pos h]
    exact State.scanEnd_withBlocks
  · rw [if_neg h]
    exact State.scanRead_handed hq 1 1

omit hq in
/-- The first block has another kind code (R123). -/
theorem State.scanFirst_other {d : Line} (hk : blockKind d = 0 ∨ 4 < blockKind d) :
    ScanEnded s ((s.withBlocks blocks port).scanFirst d) s.startup.position s.startup.expected s.startup.trackers := by
  have judged : (s.withBlocks blocks port).scanFirst d = (s.withBlocks blocks port).scanEnd := by
    unfold State.scanFirst
    exact (if_neg (by omega)).trans (if_neg (by omega))
  rw [judged]
  exact State.scanEnd_withBlocks

/-- Both header blocks are in (R123, R124). -/
theorem State.scanHeader_judged {a b : Line} {h : Header} (hh : readHeader a b = h) :
    (¬HeaderPasses s s.startup.position h → ScanEnded s ((s.withBlocks blocks port).scanHeader a b) s.startup.position
      s.startup.expected s.startup.trackers) ∧
    (HeaderPasses s s.startup.position h → h.count ≠ 0 →
      ReadsHanded s ((s.withBlocks blocks port).scanHeader a b) 2 h.count) ∧
    (∀ r : RegionId, HeaderPasses s s.startup.position h → h.region = r.val → h.count = 0 →
      RecordJudged s ((s.withBlocks blocks port).scanHeader a b) h r 2) := by
  subst hh
  have judged : (s.withBlocks blocks port).scanHeader a b =
      if s.scanHeaderValid s.startup.position s.startup.distance (readHeader a b) then
        if (readHeader a b).count = 0 then (s.withBlocks blocks port).scanRecord s.startup.position (readHeader a b)
        else (s.withBlocks blocks port).scanRead s.startup.position 2 (readHeader a b).count
      else (s.withBlocks blocks port).scanEnd := rfl
  rw [judged]
  refine ⟨fun h => ?_, fun h hc => ?_, fun r h hr hc => ?_⟩
  · rw [if_neg (mt (s.scanHeaderValid_iff _).mp h)]
    exact State.scanEnd_withBlocks
  · rw [if_pos ((s.scanHeaderValid_iff _).mpr h), if_neg hc]
    exact State.scanRead_handed hq 2 _
  · rw [if_pos ((s.scanHeaderValid_iff _).mpr h), if_pos hc]
    have record := State.scanRecord_judged (blocks := blocks) hq hr
    rwa [hc] at record

/-- The data blocks are in (R123, R124). -/
theorem State.scanData_judged {a b : Line} {data : List Line} {h : Header} (hh : readHeader a b = h) :
    (dataCrc data ≠ h.dataCrc → ScanEnded s ((s.withBlocks blocks port).scanData a b data) s.startup.position
      s.startup.expected s.startup.trackers) ∧
    (∀ r : RegionId, dataCrc data = h.dataCrc → h.region = r.val →
      RecordJudged s ((s.withBlocks blocks port).scanData a b data) h r (2 + h.count)) := by
  subst hh
  have judged : (s.withBlocks blocks port).scanData a b data =
      if dataCrc data = (readHeader a b).dataCrc then
        (s.withBlocks blocks port).scanRecord s.startup.position (readHeader a b)
      else (s.withBlocks blocks port).scanEnd := rfl
  rw [judged]
  refine ⟨fun h => ?_, fun r h hr => ?_⟩
  · rw [if_neg h]
    exact State.scanEnd_withBlocks
  · rw [if_pos h]
    exact State.scanRecord_judged hq hr

end

end Sys2Proof.Machine
end

section
/-! SUPPORT. A response that brings the last block asked for at the scan position, or fails it, and the selection of the anchor
that starts the scan (R51, R119, R121, R123, R128, R135). -/

namespace Sys2Proof.Machine

/-! ## Which block a response brings (R123) -/

theorem State.blockAddr_inj {s : State} (hg : s.log.geometry ≠ none) {i j : Nat} :
    s.blockAddr i = s.blockAddr j ↔ i = j := by
  obtain ⟨g, hg⟩ := Option.ne_none_iff_exists'.mp hg
  unfold State.blockAddr
  rw [hg]
  dsimp only
  omega

theorem find?_range_last (n : Nat) {p : Nat → Bool} (last : p n = true) (earlier : ∀ i < n, p i = false) :
    (List.range (n + 1)).find? p = some n := by
  have none : (List.range n).find? p = none := List.find?_eq_none.mpr fun i hi => by
    simp [earlier i (List.mem_range.mp hi)]
  rw [List.range_succ, List.find?_append, none, List.find?_singleton, last]
  rfl

section
variable {s : State} {pre : List BlockRead} {n : Nat}

/-- The last block asked for is found by its address. -/
theorem State.scanBlock_last (hg : s.log.geometry ≠ none) (hb : s.startup.blocks = pre ++ [⟨n, none⟩]) :
    (List.range s.startup.blocks.length).find? (fun k => s.blockAddr (s.startup.position + k) ==
      s.blockAddr (s.startup.position + pre.length)) = some pre.length := by
  rw [hb, List.length_append]
  refine find?_range_last _ (by simp) fun i hi => ?_
  rw [beq_eq_false_iff_ne, Ne, State.blockAddr_inj hg]
  omega

theorem State.scanOutcome_in (hg : s.log.geometry ≠ none) (hb : s.startup.blocks = pre ++ [⟨n, none⟩]) (d : Line) :
    s.scanOutcome (s.blockAddr (s.startup.position + pre.length)) (some d) =
      (s.withBlocks (pre ++ [⟨n, some d⟩]) s.dport).scanBlocksIn := by
  unfold State.scanOutcome
  rw [State.scanBlock_last hg hb]
  simp [hb, State.updStartup, State.withBlocks, State.withScan]

/-- A failed read of a block is made again while the limit allows, and otherwise the scan ends (R128). -/
theorem State.scanOutcome_failed (hg : s.log.geometry ≠ none) (hb : s.startup.blocks = pre ++ [⟨n, none⟩]) :
    s.scanOutcome (s.blockAddr (s.startup.position + pre.length)) none =
      if n - 1 < s.params.retryLimit then (s.withBlocks (pre ++ [⟨n + 1, none⟩]) s.dport).handRoll
        [readBlock .startup (s.blockAddr (s.startup.position + pre.length))]
      else s.scanExhausted (s.blockAddr (s.startup.position + pre.length)) n := by
  unfold State.scanOutcome
  rw [State.scanBlock_last hg hb]
  simp [hb, State.updStartup, State.withBlocks, State.withScan]

end

/-- What is judged once the blocks of the scan position are in, which depends on how many there are. -/
def State.judgeBlocks (s : State) : List Line → State
  | [a] => s.scanFirst a
  | [a, b] => s.scanHeader a b
  | a :: b :: data => s.scanData a b data
  | [] => s

theorem State.scanBlocksIn_eq {s : State} {data : List Line} (h : s.startup.blocks.map BlockRead.contents = data.map some) :
    s.scanBlocksIn = s.judgeBlocks data := by
  have all : (s.startup.blocks.all fun b => b.contents.isSome) = true :=
    calc (s.startup.blocks.all fun b => b.contents.isSome)
      _ = (s.startup.blocks.map BlockRead.contents).all Option.isSome := by simp [Function.comp_def]
      _ = true := by rw [h]; simp
  have data : s.startup.blocks.filterMap BlockRead.contents = data :=
    calc s.startup.blocks.filterMap BlockRead.contents
      _ = (s.startup.blocks.map BlockRead.contents).filterMap id := by simp
      _ = data := by rw [h]; simp
  unfold State.scanBlocksIn
  rw [if_pos all, data]
  rfl

/-! ## The reads of a block exhausted (R128) -/

/-- What an exhausted block comes to, from the state `s` of its last response. -/
structure ScanExhausted (s t : State) (addr n : Nat) : Prop where
  device : t.device = .logFault
  started : t.flag started = true
  fault : t.flag faultSource = true
  head : t.log.head = s.startup.position
  nextSeq : t.log.nextSeq = s.startup.expected
  faults : t.faults = pushEntry s.faults ⟨.recoveryRead, none, some addr, some s.startup.expected, n, false⟩
  found : ∀ r c, (s.startup.trackers.get r).candidate = some c → (t.region r).txn = .faulted ∧ (t.region r).sub = .none ∧
    (t.region r).number = c.number ∧ (t.region r).records = c.records ∧
    (t.region r).firstIndex = some c.firstIndex ∧ (t.region r).lastIndex = some c.lastIndex
  absent : ∀ r, (s.startup.trackers.get r).candidate = none → (t.region r).txn = .idle
  kept : Keeps [.device, .regions, .drains, .log, .startup, .dport, .faults, .notices] s t

/-- The log and the regions loaded where the scan is abandoned. -/
def State.scanAbandoned (s : State) : State :=
  { s with
    log := s.scannedLog
    regions := Vector.ofFn fun r => (s.startup.trackers.get r).context .faulted .none (s.region r) }

theorem Keeps.scanAbandoned (s : State) : Keeps [.regions, .drains, .log] s s.scanAbandoned :=
  ⟨fun p hp => by cases p <;> simp_all [Part.same, State.scanAbandoned], rfl, rfl, rfl⟩

theorem Keeps.stopStartup (s : State) : Keeps [.dport] s (s.stopOwner .startup) := by
  rw [State.stopOwner_eq]
  exact Keeps.updDport s fun _ => _

theorem State.scanExhausted_eq (s : State) (addr n : Nat) : s.scanExhausted addr n =
    ((((s.pushFault ⟨.recoveryRead, none, some addr, some s.startup.expected, n, false⟩).scanAbandoned).stopOwner
      .startup).setDevice .logFault).endStartup := by
  unfold State.scanExhausted
  dsimp only
  rw [State.loadScan_eq, State.setFromTrackers_eq]
  rfl

theorem State.scanExhausted_exhausted (s : State) (addr n : Nat) : ScanExhausted s (s.scanExhausted addr n) addr n := by
  rw [State.scanExhausted_eq]
  generalize he : (⟨.recoveryRead, none, some addr, some s.startup.expected, n, false⟩ : FaultEntry) = e
  have fault : (s.pushFault e).scanAbandoned.flag faultSource = true := State.flag_setNotice_self _ _
  have kept : Keeps [.device, .regions, .drains, .log, .startup, .dport, .faults, .notices] s
      (s.pushFault e).scanAbandoned :=
    ((Keeps.pushFault s e).mono (by decide)).trans ((Keeps.scanAbandoned _).mono (by decide))
  have region (r : RegionId) : (s.pushFault e).scanAbandoned.region r =
      (s.startup.trackers.get r).context .faulted .none (s.region r) := s.region_ofFn _ r
  have head : (s.pushFault e).scanAbandoned.log.head = s.startup.position := rfl
  have nextSeq : (s.pushFault e).scanAbandoned.log.nextSeq = s.startup.expected := rfl
  have faults : (s.pushFault e).scanAbandoned.faults = pushEntry s.faults e := rfl
  generalize (s.pushFault e).scanAbandoned = u at *
  have stopped : Keeps [.device, .dport] u ((u.stopOwner .startup).setDevice .logFault) :=
    ((Keeps.stopStartup u).mono (by decide)).trans ((Keeps.setDevice _ _).mono (by decide))
  have raised : ((u.stopOwner .startup).setDevice .logFault).endStartup.flag faultSource = true := by
    rw [State.endStartup, State.flag_setNotice, stopped.flag faultSource rfl, fault, Bool.or_true]
  have ends := (stopped.mono (by decide : _ ⊆ [Part.device, .dport, .notices])).notice started rfl
  have same (r : RegionId) : ((u.stopOwner .startup).setDevice .logFault).endStartup.region r = u.region r := by
    rw [State.stopOwner_eq]
    rfl
  refine ⟨rfl, State.flag_setNotice_self _ _, raised, ?_, ?_, ?_, fun r c h => ?_, fun r h => ?_,
    kept.trans (ends.mono (by decide))⟩
  · rw [State.stopOwner_eq]
    exact head
  · rw [State.stopOwner_eq]
    exact nextSeq
  · rw [he, State.stopOwner_eq]
    exact faults
  · rw [same, region, Tracker.context, h]
    exact ⟨rfl, rfl, rfl, rfl, rfl, rfl⟩
  · rw [same, region, Tracker.context, h]

end Sys2Proof.Machine
end

section
/-! SUPPORT. The selection of the anchor that starts the scan, and the responses that the Start-up Controller takes (R51, R119,
R121, R123, R128, R135). -/

namespace Sys2Proof.Machine

/-! ## A response for the Start-up Controller (R167) -/

theorem State.respond_startup {s : State} {g : DownTag} {cls : IssueClass} {op : Op} {addr timer at_ : Nat}
    (hi : s.inReset = false) (h : s.tag g = .outstanding .startup cls op addr timer at_ true) (ok : Bool) (d : Line) :
    exec (.downstreamResponse g ok d) s =
      .next ((s.setTag g .free).startupOutcome addr (if ok then some d else none)).followOn := by
  refine congrArg Host.Outcome.next ((State.unlessReset_acts hi _).trans ?_)
  unfold State.respond
  rw [h]
  rfl

/-! ## Which anchor is current (R51, R121) -/

theorem State.slotAt_slotAddr (s : State) (slot : Fin 2) : s.slotAt (s.slotAddr slot) = some slot := by
  unfold State.slotAt State.slotAddr
  obtain rfl | rfl : slot = 0 ∨ slot = 1 := by omega
  · simp
  · simp

theorem State.validSlot_read {s : State} {slot : Fin 2} {n : Nat} {b : Line}
    (h : s.startup.slots.get slot = ⟨n, .read b⟩) :
    s.validSlot slot = if anchorValid s.memorySize b then some (readAnchor b) else none := by
  unfold State.validSlot
  rw [h]

theorem sequenceAhead_self (a : Word32) : sequenceAhead a a = false := by simp [sequenceAhead]

/-- Of two sequences one at most is ahead. -/
theorem sequenceAhead_asymm {a b : Word32} (h : sequenceAhead a b = true) : sequenceAhead b a = false := by
  unfold sequenceAhead at h ⊢
  simp only [Bool.and_eq_true, decide_eq_true_eq, Bool.and_eq_false_iff, decide_eq_false_iff_not] at h ⊢
  bv_omega

section
variable {s : State} {slot other : Fin 2} {a b : AnchorContents} (hne : slot ≠ other)
include hne

theorem slots_of_ne : slot = 0 ∧ other = 1 ∨ slot = 1 ∧ other = 0 := by omega

theorem State.selectAnchor_none (h : s.validSlot slot = none) (h' : s.validSlot other = none) : s.selectAnchor = none := by
  unfold State.selectAnchor
  obtain ⟨rfl, rfl⟩ | ⟨rfl, rfl⟩ := slots_of_ne hne <;> rw [h, h']

theorem State.selectAnchor_only (h : s.validSlot slot = some a) (h' : s.validSlot other = none) :
    s.selectAnchor = some (slot, a) := by
  unfold State.selectAnchor
  obtain ⟨rfl, rfl⟩ | ⟨rfl, rfl⟩ := slots_of_ne hne <;> rw [h, h']

theorem State.selectAnchor_ahead (h : s.validSlot slot = some a) (h' : s.validSlot other = some b)
    (ahead : sequenceAhead a.sequence b.sequence = true) : s.selectAnchor = some (slot, a) := by
  unfold State.selectAnchor
  obtain ⟨rfl, rfl⟩ | ⟨rfl, rfl⟩ := slots_of_ne hne <;> rw [h, h']
  · exact if_pos ahead
  · exact if_neg (by simp [sequenceAhead_asymm ahead])

theorem State.selectAnchor_same (h : s.validSlot slot = some a) (h' : s.validSlot other = some b)
    (same : a.sequence = b.sequence) (one : slot = 1) : s.selectAnchor = some (slot, a) := by
  subst one
  obtain ⟨h0, -⟩ | ⟨-, rfl⟩ := slots_of_ne hne
  · cases h0
  · unfold State.selectAnchor
    rw [h, h']
    exact if_neg (by simp [same, sequenceAhead_self])

end

/-! ## The scan started (R121, R122) -/

/-- The scan starts from a slot's anchor (R121, R122). -/
def State.scanFrom (s : State) (slot : Fin 2) (a : AnchorContents) : State :=
  (((s.loadAnchor slot a).setDevice .scanning).updStartup fun u =>
    { u with position := a.tail, expected := a.tailSeq, distance := 0, blocks := [],
             trackers := Vector.replicate 8 { seen := none, candidate := none } }).scanHere

/-- With both slots read the selection is made. -/
theorem State.selectWhenKnown_read {s : State} {slot other : Fin 2} (hne : slot ≠ other) {n m : Nat} {b b' : Line}
    (h : s.startup.slots.get slot = ⟨n, .read b⟩) (h' : s.startup.slots.get other = ⟨m, .read b'⟩) :
    s.selectWhenKnown = match s.selectAnchor with
      | none => (s.setDevice .nolog).endStartup
      | some (slot, a) => s.scanFrom slot a := by
  have both (i : Fin 2) : s.slotKnown i = true ∧ s.slotExhausted i = false := by
    unfold State.slotKnown State.slotExhausted
    obtain rfl | rfl : i = slot ∨ i = other := by omega
    · simp [h]
    · simp [h']
  unfold State.selectWhenKnown State.select
  rw [(both 0).1, (both 1).1, (both 0).2, (both 1).2]
  rfl

/-- The scan has been started from the anchor in block `b` of slot `i` (R121, R122, R123). -/
structure ScanStarted (s t : State) (i : Fin 2) (b : Line) : Prop where
  device : t.device = .scanning
  geometry : t.log.geometry = some ⟨(readAnchor b).base, (readAnchor b).size⟩
  generation : t.log.generation = (readAnchor b).generation
  slot : t.log.slot = some i
  anchorSeq : t.log.anchorSeq = (readAnchor b).sequence
  durableTail : t.log.durableTail = (readAnchor b).tail
  position : t.startup.position = (readAnchor b).tail
  expected : t.startup.expected = (readAnchor b).tailSeq
  distance : t.startup.distance = 0
  trackers : ∀ r, t.startup.trackers.get r = ⟨none, none⟩
  queue : t.dport.rollQueue = s.dport.rollQueue ++ [readBlock .startup ((readAnchor b).base + 32 * (readAnchor b).tail)]
  kept : Keeps [.device, .log, .startup, .dport] s t

/-- The ring of a valid anchor has room for a record, so that its durable tail is read. -/
theorem State.scanFrom_started {s : State} (i : Fin 2) {memory : Nat} {b : Line} (hv : anchorValid memory b = true) :
    ScanStarted s (s.scanFrom i (readAnchor b)) i b := by
  obtain ⟨-, -, -, -, size, -⟩ := (anchorValid_iff memory b).mp hv
  have room : 0 + 1 ≠ (readAnchor b).size / 32 := by omega
  unfold State.scanFrom
  rw [State.scanHere_reads room]
  refine ⟨rfl, rfl, rfl, rfl, rfl, rfl, rfl, rfl, rfl, fun r => ?_, rfl, ?_⟩
  · exact Vector.getElem_replicate ..
  · exact ⟨fun p hp => by cases p <;> simp_all [Part.same, State.loadAnchor], rfl, rfl, rfl⟩

/-! ## The second slot answered (R119, R121) -/

/-- The state in which the outcome of a slot's read leaves the slots: its tag is FREE. -/
def State.slotIn (s : State) (g : DownTag) (slot : Fin 2) (d : Line) : State :=
  (s.setTag g .free).setSlot slot ⟨(s.startup.slots.get slot).reads, .read d⟩

theorem Keeps.slotIn (s : State) (g : DownTag) (slot : Fin 2) (d : Line) : Keeps [.startup, .dport] s (s.slotIn g slot d) :=
  ⟨fun p hp => by cases p <;> simp_all [Part.same, State.slotIn, State.setSlot], rfl, rfl, rfl⟩

/-- A scan started from the state with the slot's outcome is one started from `s`. -/
theorem ScanStarted.of_slotIn {s t : State} {g : DownTag} {slot i : Fin 2} {d b : Line}
    (h : ScanStarted (s.slotIn g slot d) t i b) : ScanStarted s t i b :=
  { h with kept := ((Keeps.slotIn s g slot d).mono (by decide)).trans h.kept }

section
variable {s : State} {g : DownTag} {slot other : Fin 2} {d d' : Line} {n : Nat} {cls : IssueClass} {op : Op}
  {timer at_ : Nat} (hi : s.inReset = false) (hd : s.device = .start)
  (hg : s.tag g = .outstanding .startup cls op (s.memorySize - 64 + 32 * slot.val) timer at_ true)
  (hne : slot ≠ other) (ho : s.startup.slots.get other = ⟨n, .read d'⟩)

include hi hd hg hne ho

/-- The event of the second slot's outcome is the selection's. -/
theorem State.slotIn_selects : exec (.downstreamResponse g true d) s = .next (State.followOn
    (match (s.slotIn g slot d).selectAnchor with
      | none => ((s.slotIn g slot d).setDevice .nolog).endStartup
      | some (i, a) => (s.slotIn g slot d).scanFrom i a)) := by
  have self : (s.slotIn g slot d).startup.slots.get slot = ⟨(s.startup.slots.get slot).reads, .read d⟩ := get_set_self ..
  have another : (s.slotIn g slot d).startup.slots.get other = ⟨n, .read d'⟩ := (get_set_other _ hne.symm _).trans ho
  rw [State.respond_startup hi hg, ← State.selectWhenKnown_read hne self another]
  have device : (s.setTag g .free).device = .start := hd
  have at_slot : (s.setTag g .free).slotAt (s.memorySize - 64 + 32 * slot.val) = some slot :=
    State.slotAt_slotAddr (s.setTag g .free) slot
  unfold State.startupOutcome State.slotReadOutcome
  rw [device, at_slot]
  rfl

omit hi hd hg in
theorem State.validSlot_slotIn : (s.slotIn g slot d).validSlot slot =
    (if anchorValid s.memorySize d then some (readAnchor d) else none) ∧ (s.slotIn g slot d).validSlot other =
      (if anchorValid s.memorySize d' then some (readAnchor d') else none) :=
  ⟨State.validSlot_read (get_set_self ..), State.validSlot_read ((get_set_other _ hne.symm _).trans ho)⟩

/-- The scan starts from the slot that is selected. -/
theorem State.slotIn_starts {i : Fin 2} {b : Line} (hv : anchorValid s.memorySize b = true)
    (selected : (s.slotIn g slot d).selectAnchor = some (i, readAnchor b)) :
    ∃ t, exec (.downstreamResponse g true d) s = .next t.followOn ∧ ScanStarted s t i b := by
  refine ⟨_, ?_, (State.scanFrom_started (s := s.slotIn g slot d) i hv).of_slotIn⟩
  rw [State.slotIn_selects hi hd hg hne ho, selected]

/-- Neither slot is valid (R135). -/
theorem State.slotIn_nolog (selected : (s.slotIn g slot d).selectAnchor = none) :
    ∃ t, exec (.downstreamResponse g true d) s = .next t.followOn ∧ t.device = .nolog ∧ t.flag started = true ∧
      Keeps [.device, .startup, .dport, .notices] s t := by
  refine ⟨((s.slotIn g slot d).setDevice .nolog).endStartup, ?_, rfl, State.flag_setNotice_self _ _, ?_⟩
  · rw [State.slotIn_selects hi hd hg hne ho, selected]
  · exact (((Keeps.slotIn s g slot d).mono (by decide)).trans ((Keeps.setDevice _ _).mono (by decide))).notice started rfl

end

/-! ## A block at the scan position answered (R123, R128) -/

section
variable {s : State} {g : DownTag} {before : List Line} {n : Nat} (hg : s.log.geometry ≠ none)
  (h : BringsScanBlock s g before n)
include hg h

/-- The last block asked for is in: the blocks there are are judged. -/
theorem BringsScanBlock.judges (d : Line) : ∃ blocks, exec (.downstreamResponse g true d) s =
    .next ((s.withBlocks blocks (s.setTag g .free).dport).judgeBlocks (before ++ [d])).followOn := by
  obtain ⟨hi, hd, ⟨pre, hb, contents⟩, cls, op, timer, at_, ht⟩ := h
  have length : before.length = pre.length := by simpa using (congrArg List.length contents).symm
  refine ⟨pre ++ [⟨n, some d⟩], ?_⟩
  rw [State.respond_startup hi ht, length]
  have device : (s.setTag g .free).device = .scanning := hd
  have brought := State.scanOutcome_in (s := s.setTag g .free) hg hb d
  have judged : (s.withBlocks (pre ++ [⟨n, some d⟩]) (s.setTag g .free).dport).scanBlocksIn = _ :=
    State.scanBlocksIn_eq (data := before ++ [d]) (by
      rw [List.map_append, ← contents]
      exact List.map_append)
  rw [← judged]
  unfold State.startupOutcome
  rw [device]
  exact congrArg (fun t => Host.Outcome.next (State.followOn t)) brought

/-- The last block asked for is not in: it is read again, or its reads are exhausted. -/
theorem BringsScanBlock.fails (d : Line) : ∃ blocks, exec (.downstreamResponse g false d) s =
    .next (State.followOn (if n - 1 < s.params.retryLimit then
      (s.withBlocks blocks (s.setTag g .free).dport).handRoll
        [readBlock .startup (s.blockAddr (s.startup.position + before.length))]
    else (s.setTag g .free).scanExhausted (s.blockAddr (s.startup.position + before.length)) n)) := by
  obtain ⟨hi, hd, ⟨pre, hb, contents⟩, cls, op, timer, at_, ht⟩ := h
  have length : before.length = pre.length := by simpa using (congrArg List.length contents).symm
  refine ⟨pre ++ [⟨n + 1, none⟩], ?_⟩
  rw [State.respond_startup hi ht, length]
  have device : (s.setTag g .free).device = .scanning := hd
  have failed := State.scanOutcome_failed (s := s.setTag g .free) hg hb
  unfold State.startupOutcome
  rw [device]
  exact congrArg (fun t => Host.Outcome.next (State.followOn t)) failed

end

/-! ## The settled statement -/

/-- Settles O52: the selected slot's anchor starts the scan, and each number of blocks in at the scan position is judged by its
own tests. -/
theorem anchorSelectionStartsTheScan : Obligations.AnchorSelectionStartsTheScan := by
  refine ⟨?_, ?_⟩
  · intro g slot other d d' n cls op timer at_ s hi hd hne ho hg taken valid
    obtain ⟨own, another⟩ := State.validSlot_slotIn (g := g) (d := d) hne ho
    have takes {i : Fin 2} {b : Line} (hv : valid b = true)
        (selected : (s.slotIn g slot d).selectAnchor = some (i, readAnchor b)) : taken i b := by
      obtain ⟨t, step, x⟩ := State.slotIn_starts hi hd hg hne ho hv selected
      exact ⟨t, step, x.device, x.geometry, x.generation, x.slot, x.anchorSeq, x.durableTail, x.position, x.expected,
        x.distance, x.trackers, x.queue, x.kept⟩
    have isNone {b : Line} (h : valid b = false) : (if valid b then some (readAnchor b) else none) = none := if_neg (by simp [h])
    have isSome {b : Line} (h : valid b = true) : (if valid b then some (readAnchor b) else none) = some (readAnchor b) :=
      if_pos h
    refine ⟨fun h h' => ?_, fun h h' => ?_, fun h h' => ?_, fun h h' => ⟨fun ahead => ?_, fun ahead => ?_, fun same =>
      ⟨fun one => ?_, fun zero => ?_⟩⟩⟩
    · exact State.slotIn_nolog hi hd hg hne ho
        (State.selectAnchor_none hne (own.trans (isNone h)) (another.trans (isNone h')))
    · exact takes h (State.selectAnchor_only hne (own.trans (isSome h)) (another.trans (isNone h')))
    · exact takes h' (State.selectAnchor_only hne.symm (another.trans (isSome h')) (own.trans (isNone h)))
    · exact takes h (State.selectAnchor_ahead hne (own.trans (isSome h)) (another.trans (isSome h')) ahead)
    · exact takes h' (State.selectAnchor_ahead hne.symm (another.trans (isSome h')) (own.trans (isSome h)) ahead)
    · exact takes h (State.selectAnchor_same hne (own.trans (isSome h)) (another.trans (isSome h')) same one)
    · exact takes h' (State.selectAnchor_same hne.symm (another.trans (isSome h')) (own.trans (isSome h)) same.symm (by omega))
  · intro g d before n s hg brings p ended reads
    have handed {t : State} {from_ count : Nat} (x : ReadsHanded s t from_ count) : reads t from_ count :=
      ⟨x.queue, x.startup, x.kept⟩
    have hq : (s.setTag g .free).dport.rollQueue = s.dport.rollQueue := rfl
    refine ⟨?_, fun limit => ?_, fun limit => ?_⟩
    · obtain ⟨blocks, step⟩ := brings.judges hg d
      refine ⟨_, step, fun hb hk => ?_, fun hb hk => ?_, fun hb hk => ?_, fun a hb => ?_, fun a b data hb => ?_⟩ <;> subst hb
      · exact State.scanFirst_marker hq hk
      · obtain ⟨ends, reading⟩ := State.scanFirst_record (blocks := blocks) hq hk
        exact ⟨ends, fun h => handed (reading h)⟩
      · exact State.scanFirst_other hk
      · obtain ⟨ends, reading, record⟩ := State.scanHeader_judged (blocks := blocks) hq (rfl : readHeader a d = _)
        exact ⟨ends, fun h hc => handed (reading h hc), record⟩
      · cases data <;> exact State.scanData_judged hq rfl
    · obtain ⟨blocks, step⟩ := brings.fails hg d
      rw [if_pos limit] at step
      exact ⟨_, step, congrArg (· ++ _) hq, rfl, Keeps.withScan s _ _⟩
    · obtain ⟨blocks, step⟩ := brings.fails hg d
      rw [if_neg (by omega)] at step
      have x := (s.setTag g .free).scanExhausted_exhausted (s.blockAddr (p + before.length)) n
      exact ⟨_, step, x.device, x.started, x.fault, x.head, x.nextSeq, x.faults, x.found, x.absent,
        ((Keeps.updDport s _).mono (by decide)).trans x.kept⟩

end Sys2Proof.Machine
end

section
/-! SUPPORT. The Power-Fail Controller and the Line Directory under every command (R60, R138, R147, R189): `DevKept` carried
from the operations to the commands, FORMAT and the end of reset apart. -/

namespace Sys2Proof.Machine

/-! ## The device state under a command -/

theorem DevKept.refl (s : State) : DevKept s s := (Kept.refl s).dev

theorem SettingsOnly.devKept {s t : State} (h : SettingsOnly s t) : DevKept s t := by
  obtain ⟨_, _, _, _, _, _, rfl⟩ := h
  exact .of_eq rfl rfl rfl rfl rfl

/-- The assertion of RESET_N deasserts SAFE and leaves the device state and the phase (R118). -/
theorem DevKept.assertReset (s : State) : DevKept s s.assertReset := by
  unfold State.assertReset
  rw [State.abandonWork_eq]
  exact ⟨id, .inl, id, .inl, fun h => ⟨h.quiescing, h.halted, h.other, nofun, fun _ => nofun⟩, fun _ => ⟨rfl, rfl⟩⟩

theorem DevKept.issueNext (s : State) : DevKept s s.issueNext :=
  State.issueNext_keeps (.refl s) fun _ _ _ _ _ _ _ => .of_eq rfl rfl rfl rfl rfl

theorem DevKept.tick (s : State) : DevKept s s.tick := by
  rw [s.tick_eq]
  exact .of_eq rfl rfl rfl rfl rfl

/-- The device state and the Power-Fail Controller go as `DevKept` says, from where they stand or, in a device state that
admits FORMAT, from the start of one (R56, R186). -/
def DevMoves (s t : State) : Prop := DevKept s t ∨ s.admitsAll = true ∧ ∃ g, DevKept (s.formatStart g) t

theorem DevMoves.refl (s : State) : DevMoves s s := .inl (.refl s)

theorem DevMoves.holdFrame {s t : State} (h : DevMoves s t) (f : Frame) : DevMoves s (t.holdFrame f) := by
  have held : DevKept t (t.holdFrame f) := .of_eq rfl rfl rfl rfl rfl
  exact h.imp (·.trans held) fun ⟨admits, g, k⟩ => ⟨admits, g, k.trans held⟩

theorem DevMoves.execFormat {base : BitVec 24} {units : BitVec 16} {s t : State}
    (he : exec (.format base units) s = .next t) : DevMoves s t := by
  cases he
  refine State.takeCommand_keeps (fun _ f h => h.holdFrame f) (.refl s) (gated_keeps (.refl s) fun admits => ?_)
  obtain stands | ⟨-, -, -, taken⟩ := formatReply_cases base.toNat units.toNat s
  · rw [stands]
    exact .refl s
  · rw [taken, done_state]
    exact .inr ⟨admits, _, (Kept.takeFormat s _).dev⟩

/-- What every command but the end of reset does to the device. -/
theorem exec_devMoves {c : Instr} {s t : State} (hc : ∀ m b, c ≠ .resetRelease m b) (he : exec c s = .next t) :
    DevMoves s t := by
  have stands := DevKept.refl s
  have kept : ∀ {t u : State}, Kept t u → DevKept s t → DevKept s u := fun k h => h.trans k.dev
  have hold : ∀ (t : State) (f : Frame), DevKept s t → DevKept s (t.holdFrame f) :=
    fun t f h => h.trans (.of_eq rfl rfl rfl rfl rfl)
  cases hset : setsState c with
  | false =>
    obtain ⟨u, hu, k⟩ := exec_kept hset s
    obtain rfl : u = t := by rw [hu] at he; exact Host.Outcome.next.inj he
    obtain k | ⟨v, f, k, rfl⟩ := k
    · exact .inl k.dev
    · exact .inl (hold v f k.dev)
  | true =>
    cases c
    case setParam | setPriority | setThreshold | popFault | claim | frameDiscard | frameEnd | firstIssueDelayExpiry =>
      exact .inl (exec_settingsOnly rfl he).devKept
    case stage => exact .inl (execStage_keeps hold stands (fun _ _ _ _ => .of_eq rfl rfl rfl rfl rfl) he)
    case format => exact DevMoves.execFormat he
    case resetAssert => cases he; exact .inl (.assertReset s)
    case resetRelease m b => exact absurd rfl (hc m b)
    case upstreamRequest q =>
      exact .inl (execUpstreamRequest_keeps stands kept (.of_eq rfl rfl rfl rfl rfl)
        (fun _ _ => .of_eq rfl rfl rfl rfl rfl) he)
    case downstreamIssue => cases he; exact .inl (State.unlessReset_keeps stands fun _ => .issueNext s)
    case tick =>
      cases he
      exact .inl (State.unlessReset_keeps stands fun _ =>
        kept ((Kept.takeExpiries _).trans (.followOn _)) (.tick s))
    all_goals exact absurd (show false = true from hset) Bool.false_ne_true

/-! ## The laws -/

theorem not_admitsAll_of_halted {s : State} (h : s.device = .halted) : s.admitsAll = false := by
  simp [State.admitsAll, h]

theorem PowerLaw.formatStart {s : State} (h : PowerLaw s) (ha : s.admitsAll = true) (g : Geometry) :
    PowerLaw (s.formatStart g) := by
  have serving : s.device ≠ .quiescing ∧ s.device ≠ .halted := by
    obtain k | k | k := (admitsAll_iff s).mp ha <;> simp [k]
  exact ⟨nofun, nofun, fun _ _ => h.other serving.1 serving.2, fun k => absurd (h.safeHalted k) serving.2, nofun⟩

theorem PowerLaw.afterReset (msize : Fin 4) (selected : Bool) (pending : List Instr) :
    PowerLaw (State.afterReset msize selected pending) :=
  ⟨nofun, nofun, fun _ _ => rfl, nofun, nofun⟩

/-- Every command keeps the power-fail law (R138, R147, R189). -/
theorem PowerLaw.exec {c : Instr} {s t : State} (h : PowerLaw s) (he : exec c s = .next t) : PowerLaw t := by
  by_cases hc : ∃ m b, c = .resetRelease m b
  · obtain ⟨m, b, rfl⟩ := hc
    cases he
    exact (PowerLaw.afterReset m b s.pending).congr rfl rfl rfl
  · obtain k | ⟨admits, g, k⟩ := exec_devMoves (fun m b e => hc ⟨m, b, e⟩) he
    · exact k.power h
    · exact k.power (h.formatStart admits g)

/-- Only the end of reset leaves HALTED (R147). -/
theorem exec_halted {c : Instr} {s t : State} (h : s.device = .halted) (hc : ∀ m b, c ≠ .resetRelease m b)
    (he : exec c s = .next t) : t.device = .halted := by
  obtain k | ⟨admits, -⟩ := exec_devMoves hc he
  · exact k.halted h
  · rw [not_admitsAll_of_halted h] at admits
    cases admits

/-- The directory law rests on the directory, the transaction states and the device state alone. -/
theorem DirectoryLaw.congr {s t : State} (h : DirectoryLaw s) (hd : t.directory = s.directory)
    (hr : ∀ r, (t.region r).txn = (s.region r).txn) (hs : t.device = s.device) : DirectoryLaw t :=
  ⟨by simpa only [hd, hr] using h.running, by simpa only [hd, hs] using h.startup⟩

/-- A tick leaves the transaction states (R27). -/
theorem Region.ticked_txn (x : Region) : x.ticked.txn = x.txn := by
  obtain ⟨due, h⟩ := x.ticked_eq
  rw [h]

theorem DirectoryLaw.tick {s : State} (h : DirectoryLaw s) : DirectoryLaw s.tick := by
  refine h.congr (by rw [s.tick_eq]) (fun r => ?_) (by rw [s.tick_eq])
  rw [s.region_tick r]
  split_ifs
  · exact Region.ticked_txn _
  · rfl

theorem DirectoryLaw.stable : Stable DirectoryLaw where
  kept k h := k.reg.law h
  settings k h := by
    obtain ⟨_, _, _, _, _, _, rfl⟩ := k
    exact h.congr rfl (fun _ => rfl) rfl
  stage r _ _ h := h.congr rfl (fun q => by rw [State.region_updRegion]; split_ifs with k <;> simp [k]) rfl
  format _ _ _ _ h := ⟨h.running, fun k => by cases k <;> contradiction⟩
  answered _ h := h.congr rfl (fun _ => rfl) rfl
  entered _ _ h := h.congr rfl (fun _ => rfl) rfl
  issueNext h := State.issueNext_keeps h fun _ _ _ _ _ _ _ => h.congr rfl (fun _ => rfl) rfl
  tick h := h.tick
  assertReset h := by
    unfold State.assertReset
    rw [State.abandonWork_eq]
    exact h.congr rfl (fun _ => rfl) rfl
  afterReset _ _ _ _ := ⟨nofun, fun _ => rfl⟩

/-- Settles O56. -/
theorem everyStepKeepsThePowerAndDirectoryLaws : Obligations.EveryStepKeepsThePowerAndDirectoryLaws := by
  refine ⟨fun s t h hs => ?_, fun s t h hs => DirectoryLaw.stable.step h hs, fun c s t h hc he => exec_halted h hc he⟩
  exact step_keeps (fun _ _ h => h.congr rfl rfl rfl) (fun _ _ _ h he => h.exec he) h hs

end Sys2Proof.Machine
end

section
/-! SUPPORT. A downstream response on a FREE tag, on a QUARANTINED one, and on the tag of an ISSUED host request (R158, R167,
R169). -/

namespace Sys2Proof.Machine

/-! ## The tag answered (R167) -/

/-- Outside reset a downstream response is taken. -/
theorem exec_downstreamResponse {s : State} (hi : s.inReset = false) (g : DownTag) (ok : Bool) (d : Line) :
    exec (.downstreamResponse g ok d) s = .next (s.respond g ok d) :=
  congrArg Host.Outcome.next (State.unlessReset_acts hi _)

/-- A tag set FREE is FREE, and no other tag changes. -/
theorem State.tag_setFree (s : State) (g : DownTag) :
    (s.setTag g .free).tag g = .free ∧ ∀ g', g' ≠ g → (s.setTag g .free).tag g' = s.tag g' :=
  ⟨(s.tag_setTag g g .free).trans (if_pos rfl), fun g' h => (s.tag_setTag g g' .free).trans (if_neg (Ne.symm h))⟩

theorem Keeps.setTag (s : State) (g : DownTag) (x : Tag) : Keeps [.dport] s (s.setTag g x) := .updDport s _

/-- A response on a FREE tag changes nothing (R167). -/
theorem State.respond_free {s : State} {g : DownTag} (h : s.tag g = .free) (ok : Bool) (d : Line) : s.respond g ok d = s := by
  unfold State.respond
  rw [h]

/-- A response on a QUARANTINED tag is late and frees the tag (R169). -/
theorem State.respond_quarantined {s : State} {g : DownTag} {a : Nat} (h : s.tag g = .quarantined a) (ok : Bool) (d : Line) :
    s.respond g ok d = (s.setTag g .free).followOn := by
  unfold State.respond
  rw [h]

/-! ## An ISSUED host request completes (R158) -/

theorem State.completeEntry_ok {s : State} {e : Entry} (h : s.entry e.tag = some e) (issued : e.state = .issued) (d : Line) :
    s.completeEntry e.tag (some d) = s.answer e .none (if e.op = .read then dataWords e.count d else []) := by
  unfold State.completeEntry
  rw [h]
  exact if_neg (not_not.mpr issued)

theorem State.completeEntry_err {s : State} {e : Entry} (h : s.entry e.tag = some e) (issued : e.state = .issued) :
    s.completeEntry e.tag none = (s.pushFault e.mediaFault).answerError e .media := by
  unfold State.completeEntry
  rw [h]
  exact if_neg (not_not.mpr issued)

/-- The fault a failed host request pushes is that of R82 and R106. -/
theorem MediaFault.eq {e : Entry} {f : FaultEntry} (h : MediaFault e f) : f = e.mediaFault := h

/-- What a completed host request leaves of the tags and the table, whatever its answer. -/
structure EntryCompleted (s t : State) (g : DownTag) (pre post : List Entry) : Prop where
  free : t.tag g = .free
  others : ∀ g', g' ≠ g → t.tag g' = s.tag g'
  table : t.table = pre ++ post

/-- An entry answered once its tag is FREE, with nothing but faults and notices changed between. -/
theorem State.answer_completes {s u : State} {g : DownTag} {pre post : List Entry} {e : Entry} (hr : InRange s)
    (hs : Stands s pre e post) (k : Keeps [.faults, .notices] (s.setTag g .free) u) (reason : Reason) (data : List Word32) :
    EntryCompleted s (u.answer e reason data) g pre post := by
  have answered := Keeps.answer u e reason data
  have tag (g' : DownTag) : (u.answer e reason data).tag g' = (s.setTag g .free).tag g' :=
    State.tag_congr ((answered.part .dport rfl).trans (k.part .dport rfl)) g'
  have table : u.table = s.table := k.part .table rfl
  obtain ⟨free, others⟩ := s.tag_setFree g
  refine ⟨(tag g).trans free, fun g' h => (tag g').trans (others g' h), ?_⟩
  rw [State.table_answer, table, ← s.table_answer e reason data, State.table_answer_of_stands hr hs]

/-- Settles O35, by the entry of the tag answered. -/
theorem responseGoesToItsOwner : Obligations.ResponseGoesToItsOwner := by
  intro g ok d s hi
  rw [exec_downstreamResponse hi]
  refine ⟨fun h => ?_, fun a h => ?_, fun pre e post cls op a timer at_ live hr hs issued h => ?_⟩
  · rw [State.respond_free h]
  · rw [State.respond_quarantined h]
    obtain ⟨free, others⟩ := s.tag_setFree g
    exact ⟨_, rfl, free, others, rfl, rfl, rfl, rfl, .setTag s g .free⟩
  · have entry : (s.setTag g .free).entry e.tag = some e := (State.entry_of_stands hr hs :)
    have freed : Keeps [.dport] s (s.setTag g .free) := .setTag s g .free
    cases ok with
    | true =>
      obtain ⟨free, others, table⟩ := State.answer_completes hr hs (.refl _ (s.setTag g .free)) .none
        (if e.op = .read then dataWords e.count d else [])
      rw [State.respond_outstanding h]
      refine ⟨(s.setTag g .free).completeEntry e.tag (some d), rfl, ?_⟩
      rw [State.completeEntry_ok entry issued]
      exact ⟨free, others, table, fun _ => ⟨State.responses_answer _ _ _ _,
        (freed.mono (by decide)).trans ((Keeps.answer _ _ _ _).mono (by decide))⟩, nofun⟩
    | false =>
      have pushed := Keeps.pushFault (s.setTag g .free) e.mediaFault
      obtain ⟨free, others, table⟩ := State.answer_completes hr hs pushed .media (errorData e.op e.count)
      have answered := Keeps.answer ((s.setTag g .free).pushFault e.mediaFault) e .media (errorData e.op e.count)
      rw [State.respond_err h]
      refine ⟨(s.setTag g .free).completeEntry e.tag none, rfl, ?_⟩
      rw [State.completeEntry_err entry issued]
      refine ⟨free, others, table, nofun, fun _ => ⟨?_, ?_, fun f hf => ?_,
        (freed.mono (by decide)).trans ((pushed.mono (by decide)).trans (answered.mono (by decide)))⟩⟩
      · exact (State.responses_answer _ _ _ _).trans (by rw [errorData_eq]; rfl)
      · exact (answered.flag faultSource rfl).trans (State.flag_setNotice_self _ _)
      · rw [hf.eq]
        exact answered.part .faults rfl

end Sys2Proof.Machine
end

section
/-! SUPPORT. The Log Writer's failed attempt on a record (R72, R102, R103, R105), and what the entry to LOG_FAULT leaves of the
Log Writer, the Rollback Engine, the waiting writes and the regions (R107 to R109). -/

namespace Sys2Proof.Machine

/-! ## No write waits for the Log Writer in LOG_FAULT (R12, R108) -/

/-- The device is in LOG_FAULT and no entry waits for the Log Writer. -/
structure NoneWaits (s : State) : Prop where
  device : s.device = .logFault
  table : ∀ e ∈ s.table, e.state ≠ .waitLog ∧ e.state ≠ .waitSpace

theorem NoneWaits.congr {s t : State} (h : NoneWaits s) (hd : t.device = s.device) (ht : t.table = s.table) : NoneWaits t :=
  ⟨hd.trans h.device, by rw [ht]; exact h.table⟩

/-- In LOG_FAULT no started request waits for the Log Writer: an enabled region's write is refused (R12, R110). -/
theorem placing_logFault {s : State} {e : Entry} {c : RequestClass} {st : EntryState} {h : Option Handling}
    (hd : s.device = .logFault) (k : s.placing e c = .go st h) : st ≠ .waitLog ∧ st ≠ .waitSpace := by
  cases c with
  | logArea => cases k
  | unmapped => cases k; decide
  | region r =>
    cases op : e.op with
    | write => simp [State.placing, hd, op] at k
    | read =>
      simp only [State.placing, hd, op, reduceCtorEq, and_false, if_false, State.placeByRegion] at k
      cases txn : (s.region r).txn <;> rw [txn] at k <;> cases k <;> decide

theorem NoneWaits.answer {s : State} (h : NoneWaits s) (e : Entry) (reason : Reason) (data : List Word32) :
    NoneWaits (s.answer e reason data) := by
  refine ⟨((Keeps.answer s e reason data).part .device rfl).trans h.device, fun x hx => h.table x ?_⟩
  rw [State.table_answer] at hx
  exact List.mem_of_mem_filter hx

theorem NoneWaits.startEntry {s : State} (h : NoneWaits s) (e : Entry) : NoneWaits (s.startEntry e) := by
  unfold State.startEntry
  dsimp only
  cases k : s.placing e (s.classify e.addr) with
  | refuse reason => exact h.answer e reason _
  | go st hd =>
    refine ⟨h.device, fun x hx => ?_⟩
    obtain ⟨y, hy, rfl⟩ := List.mem_map.mp hx
    split_ifs
    · exact placing_logFault h.device k
    · exact h.table y hy

theorem NoneWaits.returnToIdle {s : State} (h : NoneWaits s) (r : RegionId) (number : Word32 → Word32) :
    NoneWaits (s.returnToIdle r number) := by
  unfold State.returnToIdle
  extract_lets a b c
  have applied := (c.applyAtReturn_effect r).1
  have before : NoneWaits (c.applyAtReturn r) :=
    NoneWaits.congr (s := c) (h.congr rfl rfl) (applied.part .device rfl) (applied.part .table rfl)
  exact List.foldlRecOn _ _ before fun t k e _ => k.startEntry e

theorem NoneWaits.enterFaulted {s : State} (h : NoneWaits s) (r : RegionId) : NoneWaits (s.enterFaulted r) := by
  unfold State.enterFaulted
  extract_lets a b
  exact List.foldlRecOn _ _ (show NoneWaits b from h.congr rfl rfl) fun t k e _ => k.answer e _ _

theorem NoneWaits.logFaultRegion {s : State} (h : NoneWaits s) (r : RegionId) : NoneWaits (s.logFaultRegion r) := by
  obtain e | e | e | e := s.logFaultRegion_cases r <;> rw [e]
  · exact h
  · exact h.returnToIdle r _
  · exact (h.returnToIdle r _).congr rfl rfl
  · exact h.enterFaulted r

/-! ## The regions at the entry to LOG_FAULT (R109) -/

/-- Region `r` holds no transaction that can go on: it is IDLE or FAULTED. -/
def TxnEnded (s : State) (r : RegionId) : Prop := (s.region r).txn = .idle ∨ (s.region r).txn = .faulted

theorem TxnEnded.of_bare {s t : State} {r : RegionId} (h : TxnEnded s r) (k : (t.region r).bare = (s.region r).bare) :
    TxnEnded t r := by
  have txn : (t.region r).txn = (s.region r).txn := (congrArg Region.txn k :)
  rwa [TxnEnded, txn]

theorem State.enterFaulted_effect (s : State) (r : RegionId) :
    ((s.enterFaulted r).region r).txn = .faulted ∧ OtherRegions r s (s.enterFaulted r) := by
  unfold State.enterFaulted
  extract_lets a b
  have answered := Keeps.answerErrors b (b.faultedEntries r) b.faultedReason
  have txn : (b.region r).txn = .faulted := by
    show (a.region r).txn = _
    rw [show a.region r = _ from State.region_updRegion_self s r _]
  have leaves : OtherRegions r s a := OtherRegions.updRegion s r _
  have others : OtherRegions r s b := leaves
  exact ⟨(congrArg Region.txn (answered.bare rfl r) :).trans txn, others.trans (answered.others r rfl)⟩

theorem State.logFaultRegion_effect (s : State) (r : RegionId) :
    TxnEnded (s.logFaultRegion r) r ∧ OtherRegions r s (s.logFaultRegion r) := by
  have idle : ((s.returnToIdle r nextNumber).region r).txn = .idle ∧ OtherRegions r s (s.returnToIdle r nextNumber) := by
    have back := s.returnToIdle_effect r nextNumber
    obtain ⟨live, apply, k⟩ := back.region
    exact ⟨(congrArg Region.txn k :), back.others⟩
  have faulted := s.enterFaulted_effect r
  unfold State.logFaultRegion
  split
  · next h => exact ⟨.inl h, fun _ _ => rfl⟩
  · next h => exact ⟨.inr h, fun _ _ => rfl⟩
  · split_ifs
    · exact ⟨.inl idle.1, idle.2⟩
    · exact ⟨.inr faulted.1, faulted.2⟩
  · split_ifs
    · exact ⟨.inl idle.1, idle.2⟩
    · exact ⟨.inr faulted.1, faulted.2⟩
  · exact ⟨.inr faulted.1, faulted.2⟩

/-- Once each region has been dealt with, every transaction has ended. -/
theorem State.logFaultRegions_ended (s : State) (r : RegionId) : TxnEnded (allRegions.foldl State.logFaultRegion s) r := by
  have pass : ∀ (l : List RegionId) (s : State), r ∈ l ∨ TxnEnded s r → TxnEnded (l.foldl State.logFaultRegion s) r := by
    intro l
    induction l with
    | nil => exact fun s h => h.resolve_left List.not_mem_nil
    | cons q l ih =>
      intro s h
      obtain ⟨ended, others⟩ := s.logFaultRegion_effect q
      refine ih _ ?_
      by_cases hq : r = q
      · exact .inr (hq ▸ ended)
      · exact h.imp (fun k => (List.mem_cons.mp k).resolve_left hq) fun k => k.of_bare (others r hq)
  exact pass allRegions s (.inl (mem_allRegions r))

/-! ## The entry to LOG_FAULT (R108, R109) -/

theorem State.mem_writerEntries {s : State} {e : Entry} :
    e ∈ s.writerEntries ↔ e ∈ s.table ∧ (e.state = .waitLog ∨ e.state = .waitSpace) := by
  simp [State.writerEntries]

/-- The writes that wait for the Log Writer, answered: none waits any more. -/
theorem State.answerWriterEntries (s : State) (reason : Reason) :
    (∀ e ∈ (s.answerErrors s.writerEntries fun _ => reason).table, e.state ≠ .waitLog ∧ e.state ≠ .waitSpace) ∧
    ∀ e ∈ s.table, e.state = .waitLog ∨ e.state = .waitSpace →
      e.errResponse reason ∈ (s.answerErrors s.writerEntries fun _ => reason).responses := by
  rw [State.table_answerErrors, State.responses_answerErrors]
  refine ⟨fun e he => ?_, fun e he hw => ?_⟩
  · obtain ⟨inside, stays⟩ := List.mem_filter.mp he
    refine not_or.mp fun waits => ?_
    have member := List.mem_map_of_mem (f := Entry.tag) (State.mem_writerEntries.mpr ⟨inside, waits⟩)
    rw [List.contains_iff_mem.mpr member] at stays
    cases stays
  · exact List.mem_append_right _
      (List.mem_map_of_mem (f := fun e : Entry => e.errResponse reason) (State.mem_writerEntries.mpr ⟨he, hw⟩))

/-- The stopped Log Writer: IDLE, with no record, no closing request and no group (R108, step 3). -/
def LogWriter.stopped (w : LogWriter) : LogWriter :=
  { w with builder := none, closing := [], deferred := none, granted := none, held := Vector.replicate 8 none }

theorem State.writer_stopWriter (s : State) : s.stopWriter.writer = s.writer.stopped := by
  unfold State.stopWriter
  rw [State.stopOwner_eq]
  rfl

/-- What the entry to LOG_FAULT leaves of the Log Writer, the Rollback Engine and the waiting writes. -/
structure LogStopped (s t : State) : Prop where
  writer : t.writer = s.writer.stopped
  engine : t.engine.walk = none ∧ t.engine.queue = []
  waiting : NoneWaits t
  answered : ∀ e ∈ s.table, e.state = .waitLog ∨ e.state = .waitSpace → e.errResponse .logFault ∈ t.responses

/-- The part in LOG_FAULT with its Log Writer stopped, before a write is answered (R108). -/
def State.writerStopped (s : State) : State :=
  ((s.setDevice .logFault).updLog fun l => { l with deferred := none, anchorWanted := false, recoveryWanted := false }).stopWriter

theorem State.faultEntered_eq (s : State) : s.faultEntered =
    (s.writerStopped.answerErrors s.writerStopped.writerEntries fun _ => .logFault).endWalk.updEngine fun e =>
      { e with queue := [] } := rfl

/-- Before the regions are dealt with: the Log Writer stops, the writes waiting for it are answered, and the engine ends its
walk and empties its queue. -/
theorem State.faultEntered_logStopped (s : State) : LogStopped s s.faultEntered := by
  have device : s.faultEntered.device = .logFault := (Keeps.faultEntered s).part .device rfl
  have table : s.writerStopped.table = s.table := (Keeps.stopWriter _).part .table rfl
  have writer : s.writerStopped.writer = s.writer.stopped := State.writer_stopWriter _
  rw [State.faultEntered_eq] at device ⊢
  generalize s.writerStopped = c at device table writer ⊢
  have answered := Keeps.answerErrors c c.writerEntries fun _ => .logFault
  have answers := c.answerWriterEntries .logFault
  generalize c.answerErrors c.writerEntries (fun _ => .logFault) = d at device answered answers ⊢
  have ended := Keeps.endWalk d
  have walk : d.endWalk.engine.walk = none := by rw [State.engine_endWalk]
  generalize d.endWalk = w at device ended walk ⊢
  have wtable : w.table = d.table := ended.part .table rfl
  have wresponses : w.responses = d.responses := ended.part .responses rfl
  rw [table, ← wtable, ← wresponses] at answers
  exact ⟨(ended.part .writer rfl).trans ((answered.part .writer rfl).trans writer), ⟨walk, rfl⟩, ⟨device, answers.1⟩,
    answers.2⟩

theorem State.stopForLogFault_logStopped (s : State) : LogStopped s s.stopForLogFault := by
  have entered := s.faultEntered_logStopped
  have keeps := Keeps.foldl Keeps.logFaultRegion allRegions s.faultEntered
  obtain ⟨more, responses⟩ := (Kept.foldl State.logFaultRegion Kept.logFaultRegion allRegions s.faultEntered).responses
  have waiting : NoneWaits (allRegions.foldl State.logFaultRegion s.faultEntered) :=
    List.foldlRecOn _ _ entered.waiting fun t k r _ => k.logFaultRegion r
  rw [State.stopForLogFault_eq]
  generalize allRegions.foldl State.logFaultRegion s.faultEntered = t at keeps responses waiting ⊢
  have engine := keeps.engineBare rfl
  obtain ⟨walk, queue⟩ := entered.engine
  refine ⟨(keeps.part .writer rfl).trans entered.writer, ⟨(congrArg Engine.walk engine :).trans walk,
    (congrArg Engine.queue engine :).trans queue⟩, waiting, fun e he hw => ?_⟩
  rw [responses]
  exact List.mem_append_left more (entered.answered e he hw)

/-! ## A failed attempt on a record (R72, R103) -/

theorem State.unitOutcome_failed {s : State} {b : Build} {u : VerifiedUnit} {stage : VerifiedUnit → BuildStage}
    {seq : Word32} {done : State → State} (hl : u.left = 1) (addr : Nat) :
    s.unitOutcome b u stage seq done addr none = if u.attempts - 1 < s.params.retryLimit then
      (s.updWriter fun w => { w with builder := some { b with
        stage := stage ⟨u.blocks, u.attempts + 1, false, u.blocks.length, false⟩ } }).handLog
        (u.blocks.map fun x => writeBlock .logWriter x.1 x.2)
    else s.builderExhausted b none seq u.attempts := by
  unfold State.unitOutcome
  dsimp only
  rw [VerifiedUnit.take_err hl]
  split_ifs <;> rfl

/-- The event of a failed attempt on the builder's record is its outcome's. -/
theorem State.record_fails {s : State} {g : DownTag} {d : Line} {b : Build} {u : VerifiedUnit} {a : Nat} {cls op timer at_}
    (hi : s.inReset = false) (hd : s.device = .run) (ht : s.tag g = .outstanding .logWriter cls op a timer at_ true)
    (hb : s.writer.builder = some b) (hu : b.stage = .writing u) (hl : u.left = 1) :
    exec (.downstreamResponse g false d) s = .next (State.followOn (if u.attempts - 1 < s.params.retryLimit then
      ((s.setTag g .free).updWriter fun w => { w with builder := some { b with
        stage := .writing ⟨u.blocks, u.attempts + 1, false, u.blocks.length, false⟩ } }).handLog
        (u.blocks.map fun x => writeBlock .logWriter x.1 x.2)
    else (s.setTag g .free).builderExhausted b none b.record.sequence u.attempts)) := by
  have quiet : (s.setTag g .free).device ≠ .quiescing := not_quiescing_of_working (.inl hd)
  rw [exec_downstreamResponse hi, State.respond_err ht, State.deliver_logWriter quiet,
    State.writerOutcome_writing (s := s.setTag g .free) hb hu, State.unitOutcome_failed hl]
  rfl

/-- The fault of an exhausted record (R105, R115). -/
def Build.logFault (b : Build) (addr : Option Nat) (seq : Word32) (attempts : Nat) : FaultEntry :=
  ⟨.logWrite, some b.record.region, addr, some seq, attempts, false⟩

theorem State.builderExhausted_run {s : State} (hd : s.device = .run) (b : Build) (addr : Option Nat) (seq : Word32)
    (n : Nat) : s.builderExhausted b addr seq n = (s.pushFault (b.logFault addr seq n)).stopForLogFault := by
  have device : (s.pushFault (b.logFault addr seq n)).device = .run := hd
  show (s.pushFault (b.logFault addr seq n)).logSideFailure = _
  unfold State.logSideFailure
  rw [device]

/-- What an exhausted record comes to in RUN: its fault is pushed and the device enters LOG_FAULT (R105, R107, R109). -/
structure RecordExhausted (s t : State) (f : FaultEntry) : Prop where
  device : t.device = .logFault
  flag : t.flag faultSource = true
  faults : NoApplyAtClose s → t.faults = pushEntry s.faults f
  stopped : LogStopped s t
  ended : ∀ r, TxnEnded t r
  geometry : t.log.geometry = s.log.geometry

theorem State.builderExhausted_exhausted {s : State} (hd : s.device = .run) (b : Build) (addr : Option Nat) (seq : Word32)
    (n : Nat) : RecordExhausted s (s.builderExhausted b addr seq n) (b.logFault addr seq n) := by
  rw [State.builderExhausted_run hd]
  have pushed : (s.pushFault (b.logFault addr seq n)).flag faultSource = true := State.flag_setNotice_self _ _
  have faults : (s.pushFault (b.logFault addr seq n)).faults = pushEntry s.faults (b.logFault addr seq n) := rfl
  have stands : Keeps [.faults, .notices] s (s.pushFault (b.logFault addr seq n)) := Keeps.pushFault s _
  generalize s.pushFault (b.logFault addr seq n) = w at pushed faults stands ⊢
  have device : w.device = .run := (stands.part .device rfl).trans hd
  have flag := (Kept.stopForLogFault w (.inl device)).note.flags faultSource pushed
  have faulted := w.stopForLogFault_stopped
  have stopped := w.stopForLogFault_logStopped
  have ended : ∀ r, TxnEnded w.stopForLogFault r := w.faultEntered.logFaultRegions_ended
  generalize w.stopForLogFault = t at flag faulted stopped ended ⊢
  have geometry : w.log.geometry = s.log.geometry := (congrArg LogState.geometry (stands.logBare rfl) :)
  have writer : w.writer = s.writer := stands.part .writer rfl
  have table : w.table = s.table := stands.part .table rfl
  exact ⟨faulted.device, flag, fun h => (faulted.faults (h.of_keeps stands rfl)).trans faults,
    ⟨writer ▸ stopped.writer, stopped.engine, stopped.waiting, table ▸ stopped.answered⟩, ended,
    (congrArg LogState.geometry faulted.log :).trans geometry⟩

/-- Settles O44: the attempt is judged by R103, and an exhausted record stops the log. -/
theorem failedRecordIsRewrittenOrStopsTheLog : Obligations.FailedRecordIsRewrittenOrStopsTheLog := by
  intro g d b u a cls op timer at_ s hi hd ht hb hu hl
  have event := State.record_fails (d := d) hi hd ht hb hu hl
  refine ⟨fun limit => ?_, fun limit => ?_⟩
  · rw [if_pos limit] at event
    exact ⟨_, event, rfl, rfl, (s.tag_setFree g).1,
      ((Keeps.setTag s g .free).mono (by decide)).trans
        (((Keeps.updWriter _ _).mono (by decide)).trans ((Keeps.updDport _ _).mono (by decide)))⟩
  · rw [if_neg (by omega)] at event
    obtain ⟨device, flag, faults, stopped, ended, geometry⟩ :=
      State.builderExhausted_exhausted (s := s.setTag g .free) hd b none b.record.sequence u.attempts
    generalize (s.setTag g .free).builderExhausted b none b.record.sequence u.attempts = t at *
    have held (r : RegionId) : t.writer.held.get r = none := by
      rw [stopped.writer]
      simp [LogWriter.stopped, Vector.get_eq_getElem]
    obtain ⟨walk, queue⟩ := stopped.engine
    exact ⟨t, event, device, flag, faults, congrArg LogWriter.builder stopped.writer,
      congrArg LogWriter.closing stopped.writer, congrArg LogWriter.granted stopped.writer,
      congrArg LogWriter.deferred stopped.writer, held, walk, queue, stopped.waiting.table, stopped.answered, ended, geometry⟩

end Sys2Proof.Machine
end

section
/-! SUPPORT. A group taken and admitted by the idle builder: its record placed, its region's context and directory entries, and
its old-line reads (R61, R66 to R71). -/

namespace Sys2Proof.Machine

/-! ## The admission of a group's record (R43, R48, R70) -/

/-- The Log Manager's part of an admission, field by field: the placement of R40, and for a transaction's first record the
count and its sequence (R43). -/
theorem State.admitRecord_placed (s : State) (r : RegionId) (first : Bool) (lines : Nat) :
    ∃ below tail tailSeq notices, s.admitRecord r first lines = { s with
      log := { s.log with
        head := s.log.headAfter (2 + lines)
        nextSeq := (s.log.placement (2 + lines)).2 + 1
        below := below
        unresolved := if first then s.log.unresolved + 1 else s.log.unresolved
        firstSeqs := if first then s.log.firstSeqs.set r.val (some (s.log.placement (2 + lines)).2) else s.log.firstSeqs
        volatileTail := tail
        tailSeq := tailSeq }
      notices := notices } := by
  obtain ⟨below, notices, e⟩ := s.placeAtHead_eq (2 + lines)
  unfold State.admitRecord
  rw [e]
  cases first with
  | true => exact ⟨below, _, _, notices, rfl⟩
  | false => exact ⟨below, _, _, notices, rfl⟩

/-- A region's context with a record more, placed at a ring index (R70). -/
def Region.booked (x : Region) (first : Prop) [Decidable first] (index : Nat) : Region :=
  { x with records := x.records + 1, firstIndex := if first then some index else x.firstIndex, lastIndex := some index }

/-- What follows the Log Manager's part of an admission: the record counts in its region, no group of the region waits, and
the members are in WAIT_LOG (R70). -/
def State.booked (s : State) (g : Group) (first : Prop) [Decidable first] (index : Nat) : State :=
  let s := s.updRegion g.region fun x => x.booked first index
  let s := s.updWriter fun w => { w with deferred := none, held := w.held.set g.region.val none }
  (s.updLog fun l => { l with deferred := none }).moveEntries g.members .waitLog

theorem State.admitted_eq (s : State) (g : Group) : s.admitted g =
    (s.admitRecord g.region (decide ((s.region g.region).records = 0)) g.lines.length).booked g
      ((s.region g.region).records = 0) (s.log.placement (2 + g.lines.length)).1.index := rfl

theorem Keeps.booked (s : State) (g : Group) (first : Prop) [Decidable first] (index : Nat) :
    Keeps [.regions, .log, .writer, .table] s (s.booked g first index) := by
  unfold State.booked
  extract_lets a b
  exact ((Keeps.updRegion s g.region _ rfl).mono (by decide)).trans (((Keeps.updWriter a _).mono (by decide)).trans
    (((Keeps.updLog b rfl).mono (by decide)).trans ((Keeps.moveEntries _ _ _).mono (by decide))))

theorem State.region_booked (s : State) (g : Group) (first : Prop) [Decidable first] (index : Nat) :
    (s.booked g first index).region g.region = (s.region g.region).booked first index :=
  State.region_updRegion_self s g.region fun x => x.booked first index

theorem OtherRegions.booked (s : State) (g : Group) (first : Prop) [Decidable first] (index : Nat) :
    OtherRegions g.region s (s.booked g first index) :=
  OtherRegions.updRegion s g.region fun x => x.booked first index

/-- What an admission changes before the build is taken or held: the log, the region's context, the waiting groups and the
members' states. -/
structure RecordAdmitted (s t : State) (g : Group) : Prop where
  head : t.log.head = s.log.headAfter (2 + g.lines.length)
  nextSeq : t.log.nextSeq = (s.log.placement (2 + g.lines.length)).2 + 1
  unresolved : t.log.unresolved = if decide ((s.region g.region).records = 0) then s.log.unresolved + 1 else s.log.unresolved
  firstSeq : t.log.firstSeqs.get g.region = if decide ((s.region g.region).records = 0) then
    some (s.log.placement (2 + g.lines.length)).2 else s.log.firstSeqs.get g.region
  region : t.region g.region = (s.region g.region).booked ((s.region g.region).records = 0)
    (s.log.placement (2 + g.lines.length)).1.index
  others : OtherRegions g.region s t
  writer : t.writer = { s.writer with deferred := none, held := s.writer.held.set g.region.val none }
  table : t.table = (s.moveEntries g.members .waitLog).table
  keeps : Keeps [.regions, .log, .writer, .table, .notices] s t

theorem State.admitted_recordAdmitted (s : State) (g : Group) : RecordAdmitted s (s.admitted g) g := by
  obtain ⟨below, tail, tailSeq, notices, e⟩ :=
    s.admitRecord_placed g.region (decide ((s.region g.region).records = 0)) g.lines.length
  rw [State.admitted_eq]
  generalize s.admitRecord g.region (decide ((s.region g.region).records = 0)) g.lines.length = a at e ⊢
  have placed : Keeps [.log, .notices] s a := by
    rw [e]
    exact ⟨fun p hp => by cases p <;> simp_all [Part.same, State.region], rfl, rfl, rfl⟩
  have firstSeq : a.log.firstSeqs.get g.region = if decide ((s.region g.region).records = 0) then
      some (s.log.placement (2 + g.lines.length)).2 else s.log.firstSeqs.get g.region := by
    rw [e]
    dsimp only
    split_ifs <;> simp [Vector.get_eq_getElem]
  have regions : ∀ r, a.region r = s.region r := fun r => by
    rw [e]
    rfl
  have booked := Keeps.booked a g ((s.region g.region).records = 0) (s.log.placement (2 + g.lines.length)).1.index
  have region := State.region_booked a g ((s.region g.region).records = 0) (s.log.placement (2 + g.lines.length)).1.index
  have others := OtherRegions.booked a g ((s.region g.region).records = 0) (s.log.placement (2 + g.lines.length)).1.index
  rw [regions] at region
  refine ⟨?_, ?_, ?_, firstSeq, region, (placed.others g.region rfl).trans others, ?_, ?_,
    (placed.mono (by decide)).trans (booked.mono (by decide))⟩
  all_goals
    rw [e]
    rfl

/-! ## The build taken by the idle builder (R69, R71) -/

/-- A group with its old-line reads handed. -/
def Group.reading (g : Group) : Group := { g with lines := g.lines.map fun l => { l with reads := 1, old := none } }

theorem Group.reading_lines (g : Group) : g.reading.lines.map GroupLine.addr = g.lines.map GroupLine.addr ∧
    ∀ l ∈ g.reading.lines, l.reads = 1 ∧ l.old = none := by
  simp [Group.reading, Function.comp_def]

/-- The build that the idle builder takes at a grant. -/
def State.takenBuild (s : State) (g : Group) : Build := { s.grantBuild g with group := some g.reading }

/-- With an idle builder a grant ends in its build taken and its old-line reads handed in group order. -/
theorem State.grant_idle {s : State} (h : s.writer.builder = none) (g : Group) : s.grant g =
    ((s.admitted g).updWriter fun w => { w with builder := some (s.takenBuild g), granted := none }).handLog
      (g.lines.map fun l => readBlock .logWriter l.addr) := by
  have idle : (s.admitted g).writer.builder.isNone = true := by
    rw [(s.admitted_admitted g).builder, h]
    rfl
  rw [State.grant_eq, if_pos idle]
  have reads : g.reading.lines.map (fun l => readBlock .logWriter l.addr) =
      g.lines.map fun l => readBlock .logWriter l.addr := by simp [Group.reading, Function.comp_def]
  rw [← reads]
  rfl

/-- What a grant to the idle builder does: its build `b` is placed by R40 on a ring of `n` blocks, and the reads of the old
lines are handed. -/
structure GroupBuilt (n : Nat) (s t : State) (g : Group) (b : Build) : Prop where
  builder : t.writer.builder = some b
  lastServed : t.writer.lastServed = s.writer.lastServed
  placed : PlacedAt n s.log.head s.log.nextSeq (2 + g.lines.length) b.place.index b.record.sequence b.place.marker
    t.log.head t.log.nextSeq
  region : t.region g.region = (s.region g.region).booked ((s.region g.region).records = 0) b.place.index
  others : OtherRegions g.region s t
  unresolved : t.log.unresolved = if decide ((s.region g.region).records = 0) then s.log.unresolved + 1 else s.log.unresolved
  firstSeq : t.log.firstSeqs.get g.region = if decide ((s.region g.region).records = 0) then some b.record.sequence
    else s.log.firstSeqs.get g.region
  reads : t.dport.logQueue = s.dport.logQueue ++ g.lines.map fun l => readBlock .logWriter l.addr
  table : t.table = (s.moveEntries g.members .waitLog).table
  keeps : Keeps [.regions, .log, .writer, .table, .dport, .notices] s t

theorem State.grant_built {s : State} (idle : s.writer.builder = none) {ring : Geometry} (hr : s.log.geometry = some ring)
    (head : s.log.head < ring.blocks) (g : Group) : GroupBuilt ring.blocks s (s.grant g) g (s.takenBuild g) := by
  have place := LogState.placement_at s.log ring hr head (2 + g.lines.length)
  have admitted := s.admitted_recordAdmitted g
  rw [State.grant_idle idle]
  generalize s.admitted g = a at admitted ⊢
  have queue : a.dport = s.dport := admitted.keeps.part .dport rfl
  refine ⟨rfl, (congrArg LogWriter.lastServed admitted.writer :), ?_, admitted.region, admitted.others, admitted.unresolved,
    admitted.firstSeq, congrArg (fun d : Downstream => d.logQueue ++ _) queue, admitted.table,
    (admitted.keeps.mono (by decide)).trans
      (((Keeps.updWriter a _).mono (by decide)).trans ((Keeps.updDport _ _).mono (by decide)))⟩
  rw [← admitted.head, ← admitted.nextSeq] at place
  exact place

/-! ## The members of a new group (R68) -/

theorem State.mem_newGroup {s : State} {r : RegionId} {tag : HostTag} (h : tag ∈ (s.newGroup r).members) :
    ∃ x ∈ s.table, x.state = .waitLog ∧ x.tag = tag := by
  obtain ⟨x, hx, rfl⟩ := List.mem_map.mp h
  obtain ⟨inside, waits⟩ := List.mem_filter.mp (List.mem_of_mem_take hx)
  simp only [Bool.and_eq_true, beq_iff_eq] at waits
  obtain ⟨⟨waits, -⟩, -⟩ := waits
  exact ⟨x, inside, waits, rfl⟩

/-- The members of a new group are in WAIT_LOG already. -/
theorem State.moveEntries_newGroup {s : State} (h : s.tags.Nodup) (r : RegionId) :
    (s.moveEntries (s.newGroup r).members .waitLog).table = s.table := by
  have stays : ∀ e ∈ s.table, (if e.tag ∈ (s.newGroup r).members ∧ (e.state = .waitLog ∨ e.state = .waitSpace) then
      { e with state := .waitLog } else e) = e := by
    intro e he
    split_ifs with k
    · obtain ⟨x, hx, waits, tag⟩ := State.mem_newGroup k.1
      rw [← eq_of_tag h hx he tag, ← waits]
    · rfl
  show s.table.map _ = _
  rw [List.map_congr_left stays, List.map_id']

theorem State.newGroup_region (s : State) (r : RegionId) : (s.newGroup r).region = r := rfl

/-- The members of a new group and their lines, one line for each member (R68). -/
theorem State.newGroup_length (s : State) (r : RegionId) : (s.newGroup r).lines.length = ((s.untaken r).take 8).length := by
  rw [← List.length_map (f := GroupLine.addr), State.newGroup_lines, List.length_map]

/-! ## A new group admitted (R61, R66 to R71) -/

/-- What the taking of region `r`'s new group changes: the region last served, PENDING entries for the earliest lines while
any is free, and SATURATED when a line is left over (R61, R66, R68). -/
structure GroupTaken (s u : State) (r : RegionId) : Prop where
  region : u.region r = { s.region r with
    saturated := ((s.region r).saturated || decide (256 - s.directory.length < (s.newGroup r).lines.length)) }
  others : OtherRegions r s u
  directory : u.directory = s.directory ++ (((s.newGroup r).lines.map GroupLine.addr).take (256 - s.directory.length)).map
    fun a => ⟨r, a, false⟩
  writer : u.writer = { s.writer with lastServed := r }
  log : u.log = s.log
  table : u.table = s.table
  dport : u.dport = s.dport
  keeps : Keeps [.regions, .directory, .writer] s u

theorem State.taken_taken (s : State) (r : RegionId) : GroupTaken s (s.taken r) r := by
  have k : GroupInserted (s.served r) (s.taken r) (s.newGroup r) := State.insertGroup_inserted _ _
  have all : (!(s.newGroup r).lines.all GroupLine.inDirectory) =
      decide (256 - s.directory.length < (s.newGroup r).lines.length) := by
    rw [State.newGroup_all, State.newGroup_length, ← decide_not]
    exact decide_eq_decide.mpr Nat.not_le
  have directory : (s.taken r).directory = s.directory ++ (s.newGroup r).tracked.map fun a => ⟨r, a, false⟩ := k.directory
  have saturated : ((s.taken r).region r).saturated = ((s.region r).saturated || _) := k.saturated
  have rest : { (s.taken r).region r with saturated := false } = { s.region r with saturated := false } := k.region
  rw [all] at saturated
  rw [State.newGroup_tracked, ← State.newGroup_lines] at directory
  refine ⟨?_, k.others, directory, k.writer, k.log, k.keeps.part .table rfl, k.keeps.part .dport rfl,
    ((Keeps.updWriter s _).mono (by decide)).trans (k.keeps.mono (by decide))⟩
  rw [← saturated]
  exact (congrArg (fun x : Region => { x with saturated := ((s.taken r).region r).saturated }) rest :)

/-- A part changed that ends as it stood need not be named as changed. -/
theorem Keeps.without {c d : List Part} {s t : State} {p : Part} (h : Keeps c s t) (same : p.same s t) (hc : c ⊆ p :: d) :
    Keeps d s t := by
  refine ⟨fun q hq => ?_, h.2⟩
  by_cases hp : q = p
  · exact hp ▸ same
  · exact h.1 q fun k => (List.mem_cons.mp (hc k)).elim hp hq

/-- The idle builder takes region `r`'s new group, and its record is admitted. -/
theorem State.newGroup_granted {s : State} {r : RegionId} (hi : s.inReset = false) (hd : s.device = .run)
    (hb : s.writer.builder = none) (granted : s.writer.granted = none) (closing : s.writer.closing = [])
    (deferred : s.writer.deferred = none) (served : s.serveOrder.find? s.eligible = some r)
    (held : s.writer.held.get r = none)
    (admits : s.log.admits (decide ((s.region r).records = 0)) (s.newGroup r).lines.length = true) :
    exec .chooseNextWork s = .next ((s.taken r).grant (s.newGroup r)).followOn := by
  have taken := s.taken_taken r
  have test : (s.taken r).log.admits (decide (((s.taken r).region r).records = 0)) (s.newGroup r).lines.length = true := by
    rw [taken.log, taken.region]
    exact admits
  rw [exec_chooseNextWork hi hd hb, State.chooseWork_serves granted closing deferred served, State.serve_new held]
  exact congrArg (fun t : State => Host.Outcome.next t.followOn) (if_pos test)

/-- Settles O41: a new group's admission is granted, and the idle builder takes its record. -/
theorem groupIsTakenAndGranted : Obligations.GroupIsTakenAndGranted := by
  intro r ring s hi hd hb granted closing deferred hr served held hg head _ members lines first admits
  have addrs : (s.newGroup r).lines.map GroupLine.addr = lines := s.newGroup_lines r
  have count : (s.newGroup r).lines.length = members.length := s.newGroup_length r
  have acts := State.newGroup_granted hi hd hb granted closing deferred served held (by rw [count]; exact admits)
  obtain ⟨region, others, directory, writer, log, table, dport, keeps⟩ := s.taken_taken r
  have reads := (s.newGroup r).reading_lines
  have built := State.grant_built (s := s.taken r) (by rw [writer]; exact hb) (log ▸ hg) (log ▸ head) (s.newGroup r)
  have stays := State.moveEntries_newGroup hr.tags r
  obtain ⟨builder, last, placed, context, more, unresolved, firstSeq, queue, moved, kept⟩ := built
  rw [log, count] at placed
  rw [State.newGroup_region, region] at context
  rw [State.newGroup_region, region, log] at unresolved firstSeq
  have still : ((s.taken r).grant (s.newGroup r)).table = s.table := by
    rw [moved]
    show (s.taken r).table.map _ = _
    rw [table]
    exact stays
  have keeps : Keeps [.table, .regions, .directory, .log, .writer, .dport, .notices] s ((s.taken r).grant (s.newGroup r)) :=
    (keeps.mono (by decide)).trans (kept.mono (by decide))
  refine ⟨(s.taken r).grant (s.newGroup r), (s.taken r).takenBuild (s.newGroup r), (s.newGroup r).reading, acts, builder, rfl,
    rfl, rfl, reads.1.trans addrs, reads.2, ?_, placed, rfl, rfl, ?_, rfl, rfl, addrs, congrArg LogState.generation log, ?_,
    ?_, ?_, ?_, unresolved, firstSeq, ?_, ?_, ?_, others.trans more, still, keeps.without (p := .table) still (List.Subset.refl _)⟩
  · rw [last, writer]
  · show decide (((s.taken r).region r).records = 0) = _
    rw [region]
  · show (if ((s.taken r).region r).records = 0 then none else ((s.taken r).region r).lastIndex) = _
    simp only [region, first, decide_eq_true_eq]
  · rw [context, Region.booked]
  · rw [context, Region.booked]
  · rw [context, Region.booked]
    simp only [first, decide_eq_true_eq]
  · rw [kept.part .directory rfl, directory, addrs]
  · rw [context, Region.booked, count, List.length_map]
  · rw [queue, dport, ← addrs, List.map_map]
    rfl

end Sys2Proof.Machine
end

section
/-! SUPPORT. What follows on an event where nothing is due, and all that it may change (R85, R86, R134, R144, R155). -/

namespace Sys2Proof.Machine

/-! ## A step that is not due -/

/-- The start of an entry that must wait, or has started, is an event that is not due (R155). -/
theorem State.entryStart_waits {s : State} (h : InRange s) {pre post : List Entry} {e : Entry} (hs : Stands s pre e post)
    (hw : e.state ≠ .waitOrder ∨ ¬LineClear s pre e) : exec (.entryStart e.tag) s = .next s := by
  have stays : ¬s.mayStart e = true := by
    rw [State.mayStart_iff h hs, not_and_or]
    exact hw
  refine congrArg Host.Outcome.next (State.unlessReset_keeps (P := (· = s)) rfl fun _ => ?_)
  rw [State.entry_of_stands h hs]
  exact if_neg stays

theorem State.nextWalk_eq_self {s : State} (h : s.working = false ∨ s.engine.walk ≠ none ∨ s.engine.queue = []) :
    s.nextWalk = s := by
  obtain ⟨r, rest, working, walk, queue, -⟩ | ⟨-, k⟩ := s.nextWalk_cases
  · simp [working, walk, queue] at h
  · exact k

theorem State.passDrain_eq_self {s : State}
    (h : ∀ r, s.engine.walk = some r → s.working = false ∨ (s.region r).sub ≠ .draining ∨ s.drainOver r = false) :
    s.passDrain = s := by
  obtain ⟨r, working, walk, sub, ended, -⟩ | ⟨-, k⟩ := s.passDrain_cases
  · have := h r walk
    simp [working, sub, ended] at this
  · exact k

/-- A drain is over once its set is empty and no QUARANTINED tag is in the window (R86). -/
theorem State.drainOver_iff (s : State) (r : RegionId) :
    s.drainOver r = true ↔ s.engine.drain = [] ∧ ¬WindowQuarantined s r := by
  rw [State.drainOver, Bool.and_eq_true, List.isEmpty_iff, and_congr_right_iff]
  intro _
  rw [State.windowClear, ← Bool.not_and, Bool.not_eq_true', ← Bool.not_eq_true, Bool.and_eq_true,
    State.anyTag_quarantinedAt, WindowQuarantined]

theorem NothingDue.nextWalk_eq {s : State} (h : NothingDue s) : s.nextWalk = s := by
  refine State.nextWalk_eq_self ?_
  by_cases hd : s.working = true
  · by_cases hw : s.engine.walk = none
    · exact .inr (.inr (h.walks ((s.working_iff).mp hd) hw))
    · exact .inr (.inl hw)
  · exact .inl (Bool.not_eq_true _ ▸ hd)

theorem NothingDue.passDrain_eq {s : State} (h : NothingDue s)
    (rolling : ∀ r, s.engine.walk = some r → (s.region r).txn = .rollingBack) : s.passDrain = s := by
  obtain ⟨r, working, walk, sub, ended, -⟩ | ⟨-, k⟩ := s.passDrain_cases
  · obtain ⟨empty, clear⟩ := (s.drainOver_iff r).mp ended
    obtain left | left := h.drains r walk ((s.working_iff).mp working) (rolling r walk) sub
    · exact absurd empty left
    · exact absurd left clear
  · exact k

theorem NothingDue.passRecovery_eq {s : State} (h : NothingDue s) (hi : s.inReset = false) (hg : s.log.geometry ≠ none) :
    s.passRecovery = s := by
  obtain ⟨recovered, k⟩ | ⟨-, k⟩ := s.passRecovery_cases <;> rw [k]
  obtain ⟨device, queue, walk⟩ := (s.recovered_iff).mp recovered
  obtain ⟨a, anchor, served⟩ := h.recovery hi device queue walk hg
  obtain ⟨none, -⟩ | ⟨b, other, ⟨-, e⟩ | ⟨notRecovery, e⟩⟩ := s.endRecovery_cases
  · rw [anchor] at none
    cases none
  · exact e
  · obtain rfl : a = b := Option.some.inj (anchor.symm.trans other)
    rw [e, State.updLog, ← served.resolve_left notRecovery]

theorem NothingDue.passSettling_eq {s : State} (h : NothingDue s) (hi : s.inReset = false) : s.passSettling = s := by
  obtain ⟨device, phase, settled, -⟩ | ⟨-, k⟩ := s.passSettling_cases
  · exact absurd ((s.settled_iff).mp settled) (h.settling hi device phase)
  · exact k

/-- Where nothing is due, nothing follows on an event. -/
theorem NothingDue.followOn_eq {s : State} (h : NothingDue s) (hi : s.inReset = false) (hg : s.log.geometry ≠ none)
    (rolling : ∀ r, s.engine.walk = some r → (s.region r).txn = .rollingBack) : s.followOn = s := by
  unfold State.followOn
  rw [State.startEntries_of_noneStarts h.starts, h.nextWalk_eq, h.passDrain_eq rolling, h.passRecovery_eq hi hg,
    h.passSettling_eq hi]

/-! ## What a walk's steps leave alone -/

/-- A region context but for its rollback sub-state and its drain set. -/
def Region.settled (x : Region) : Region := { x with sub := .none, drain := [] }

theorem Region.settled_of_bare {x y : Region} (h : x.bare = y.bare) : x.settled = y.settled :=
  (congrArg (fun z : Region => { z with sub := .none }) h :)

theorem Keeps.setSub (s : State) (r : RegionId) (x : SubState) : Keeps [.regions] s (s.setSub r x) :=
  .updRegion s r _ rfl

theorem State.settled_setSub (s : State) (r q : RegionId) (x : SubState) :
    ((s.setSub r x).region q).settled = (s.region q).settled := by
  rw [State.setSub, State.region_updRegion]
  split_ifs with h
  · rw [← h]
    rfl
  · rfl

theorem Keeps.handRoll (s : State) (qs : List DownRequest) : Keeps [.dport] s (s.handRoll qs) := .updDport s _

theorem Keeps.readRecord (s : State) : Keeps [.engine, .dport] s s.readRecord := by
  unfold State.readRecord
  split
  · exact .refl _ s
  · exact ((Keeps.updEngine s rfl).mono (by decide)).trans ((Keeps.handRoll _ _).mono (by decide))

theorem Keeps.startWalking (s : State) (r : RegionId) : Keeps [.regions, .engine, .dport] s (s.startWalking r) :=
  ((Keeps.setSub s r _).mono (by decide)).trans ((Keeps.readRecord _).mono (by decide))

/-- An update of the engine, the walk's drain set with it. -/
theorem Keeps.updEngineAndDrain (s : State) (f : Engine → Engine) : Keeps [.engine, .drains] s (s.updEngine f) :=
  ⟨fun p hp => by cases p <;> simp_all [Part.same], rfl, rfl, rfl⟩

theorem Keeps.startWalk (s : State) (r : RegionId) : Keeps [.regions, .drains, .engine, .dport] s (s.startWalk r) := by
  unfold State.startWalk
  extract_lets drain t
  have begun : Keeps [.regions, .drains, .engine, .dport] s t :=
    ((Keeps.updEngineAndDrain s _).mono (by decide)).trans ((Keeps.setSub _ r _).mono (by decide))
  split_ifs
  · exact begun.trans ((Keeps.startWalking t r).mono (by decide))
  · exact begun

/-! ## All that may follow on an event -/

/-- The parts that what follows on an event may change. -/
def followParts : List Part := [.device, .powerFail, .regions, .drains, .log, .engine, .table, .dport, .responses]

/-- What the steps that follow on an event may change: sub-states and drain sets of the regions, and among the other parts no
tag and no response given before. -/
structure Follows (s t : State) : Prop where
  keeps : Keeps followParts s t
  contexts : ∀ r, (t.region r).settled = (s.region r).settled
  responses : ∃ more, t.responses = s.responses ++ more
  tags : ∀ g, t.tag g = s.tag g

theorem Follows.refl (s : State) : Follows s s :=
  ⟨.refl _ s, fun _ => rfl, ⟨[], (List.append_nil _).symm⟩, fun _ => rfl⟩

theorem Follows.trans {s t u : State} (a : Follows s t) (b : Follows t u) : Follows s u := by
  obtain ⟨x, hx⟩ := a.responses
  obtain ⟨y, hy⟩ := b.responses
  exact ⟨a.keeps.trans b.keeps, fun r => (b.contexts r).trans (a.contexts r),
    ⟨x ++ y, by rw [hy, hx, List.append_assoc]⟩, fun g => (b.tags g).trans (a.tags g)⟩

/-- A step that gives no response. -/
theorem Follows.of_keeps {c : List Part} {s t : State} (k : Keeps c s t) (hc : c ⊆ followParts)
    (hr : c.contains .responses = false) (contexts : ∀ r, (t.region r).settled = (s.region r).settled)
    (tags : ∀ g, t.tag g = s.tag g) : Follows s t :=
  ⟨k.mono hc, contexts, ⟨[], (k.part .responses hr).trans (List.append_nil _).symm⟩, tags⟩

theorem Follows.startEntry (s : State) (e : Entry) : Follows s (s.startEntry e) := by
  refine ⟨(Keeps.startEntry s e).mono (by decide), fun r => Region.settled_of_bare ((Keeps.startEntry s e).bare rfl r), ?_,
    s.tag_startEntry e⟩
  obtain ⟨reason, k⟩ | ⟨st, h, -, k⟩ := startEntry_cases s e <;> rw [k]
  · exact ⟨_, State.responses_answer s e _ _⟩
  · exact (Follows.refl s).responses

theorem Follows.startEntries (s : State) : Follows s s.startEntries :=
  State.startEntries_keeps (P := Follows s) (fun t e k _ _ => k.trans (.startEntry t e)) (.refl s)

theorem Follows.nextWalk (s : State) : Follows s s.nextWalk := by
  obtain ⟨r, rest, -, -, -, k⟩ | ⟨-, k⟩ := s.nextWalk_cases <;> rw [k]
  · obtain ⟨x, e, q, h, -⟩ := s.startWalk_shape r
    refine .of_keeps (Keeps.startWalk s r) (by decide) rfl (fun p => ?_) fun g => ?_ <;> rw [h]
    · exact s.settled_setSub r p x
    · rfl
  · exact .refl s

theorem Follows.passDrain (s : State) : Follows s s.passDrain := by
  obtain ⟨r, -, -, -, -, k⟩ | ⟨-, k⟩ := s.passDrain_cases <;> rw [k]
  · obtain ⟨e, q, h, -⟩ := s.startWalking_shape r
    refine .of_keeps (Keeps.startWalking s r) (by decide) rfl (fun p => ?_) fun g => ?_ <;> rw [h]
    · exact s.settled_setSub r p .walking
    · rfl
  · exact .refl s

theorem Follows.startAnchor (s : State) (p : AnchorPurpose) : Follows s (s.startAnchor p) :=
  .of_keeps (Keeps.startAnchor s p) (by decide) rfl
    (fun r => Region.settled_of_bare ((Keeps.startAnchor s p).bare rfl r)) (s.tag_startAnchor p)

theorem Follows.passRecovery (s : State) : Follows s s.passRecovery := by
  obtain ⟨-, k⟩ | ⟨-, k⟩ := s.passRecovery_cases <;> rw [k]
  · obtain ⟨-, e⟩ | ⟨a, -, ⟨-, e⟩ | ⟨-, e⟩⟩ := s.endRecovery_cases <;> rw [e]
    · exact .startAnchor s _
    · exact .refl s
    · have waits := Keeps.updLog (f := fun l => { l with recoveryWanted := true }) s rfl
      exact .of_keeps waits (by decide) rfl (fun _ => rfl) fun _ => rfl
  · exact .refl s

theorem Keeps.updPowerFail (s : State) (f : PowerFail → PowerFail) : Keeps [.powerFail] s (s.updPowerFail f) :=
  ⟨fun p hp => by cases p <;> simp_all [Part.same], rfl, rfl, rfl⟩

theorem Follows.passSettling (s : State) : Follows s s.passSettling := by
  obtain ⟨-, -, -, k⟩ | ⟨-, k⟩ := s.passSettling_cases <;> rw [k]
  · unfold State.endSettling
    extract_lets t
    have phase : Follows s t := .of_keeps (Keeps.updPowerFail s _) (by decide) rfl (fun _ => rfl) fun _ => rfl
    split_ifs
    · exact phase.trans (.startAnchor t _)
    · have halts : Keeps [.powerFail, .device] t t.halt :=
        ((Keeps.setDevice t .halted).mono (by decide)).trans ((Keeps.updPowerFail _ _).mono (by decide))
      exact phase.trans (.of_keeps halts (by decide) rfl (fun _ => rfl) fun _ => rfl)
  · exact .refl s

theorem Follows.followOn (s : State) : Follows s s.followOn :=
  (Follows.startEntries s).trans ((Follows.nextWalk _).trans ((Follows.passDrain _).trans
    ((Follows.passRecovery _).trans (Follows.passSettling _))))

/-- Settles O32. -/
theorem entryWaitsForItsLine : Obligations.EntryWaitsForItsLine := by
  refine ⟨fun pre post e s h hs hw => State.entryStart_waits h hs hw, fun s h => State.followOn_nothingDue h,
    fun s _ hi hg rolling h => h.followOn_eq hi hg rolling, fun s => ?_⟩
  obtain ⟨keeps, contexts, responses, tags⟩ := Follows.followOn s
  exact ⟨keeps, contexts, responses, tags⟩

end Sys2Proof.Machine
end

section
/-! SUPPORT. The start of a walk and the end of its drain, each as a command and as what follows on an event (R85, R86,
R88). -/

namespace Sys2Proof.Machine

/-! ## The steps as what follows on an event -/

/-- Where no entry may start, the next walk is the first thing that follows on an event (R85). -/
theorem State.followOn_nextWalk {s : State} (quiet : NoneStarts s s.table) : s.followOn = s.nextWalk.followOn := by
  have once : s.nextWalk.nextWalk = s.nextWalk := by
    refine State.nextWalk_eq_self ?_
    by_cases hd : s.nextWalk.working = true
    · by_cases hw : s.nextWalk.engine.walk = none
      · exact .inr (.inr (s.nextWalk_noWalkDue ((State.working_iff _).mp hd) hw))
      · exact .inr (.inl hw)
    · exact .inl (Bool.not_eq_true _ ▸ hd)
  unfold State.followOn
  rw [State.startEntries_of_noneStarts quiet, State.startEntries_of_noneStarts (State.nextWalk_noneStarts quiet), once]

/-- While a walk runs and no entry may start, the end of its drain is the first thing that follows on an event (R86). -/
theorem State.followOn_startWalking {s : State} {r : RegionId} (quiet : NoneStarts s s.table) (walk : s.engine.walk = some r)
    (h : s.passDrain = s.startWalking r) : s.followOn = (s.startWalking r).followOn := by
  have quiet' : NoneStarts (s.startWalking r) (s.startWalking r).table := h ▸ State.passDrain_noneStarts quiet
  obtain ⟨e, q, shape, same, -, -⟩ := s.startWalking_shape r
  have walk' : (s.startWalking r).engine.walk = some r := by rw [shape]; exact same.trans walk
  have sub : ((s.startWalking r).region r).sub = .walking := by
    rw [shape]
    show ((s.setSub r .walking).region r).sub = _
    rw [State.setSub, State.region_updRegion_self]
  have once : (s.startWalking r).passDrain = s.startWalking r := State.passDrain_eq_self fun q hq => by
    obtain rfl : r = q := Option.some.inj (walk'.symm.trans hq)
    exact .inr (.inl (by rw [sub]; decide))
  unfold State.followOn
  rw [State.startEntries_of_noneStarts quiet, State.startEntries_of_noneStarts quiet',
    State.nextWalk_eq_self (.inr (.inl (by simp [walk]))), State.nextWalk_eq_self (.inr (.inl (by simp [walk']))), h, once]

/-! ## The record to be read (R88) -/

/-- The read of the record at the engine's index. -/
theorem State.readRecord_eq {s : State} {x : Nat} (h : s.engine.index = some x) : s.readRecord = { s with
    engine := { s.engine with
      header := none, buffer := [], lineIndex := none, restore := none, blocks := [⟨1, none⟩, ⟨1, none⟩] }
    dport := { s.dport with rollQueue := s.dport.rollQueue ++
      [readBlock .rollback (s.recordBlock x 0), readBlock .rollback (s.recordBlock x 1)] } } := by
  unfold State.readRecord
  rw [h]
  rfl

theorem State.region_readRecord (s : State) (q : RegionId) : s.readRecord.region q = s.region q := by
  unfold State.readRecord
  split <;> rfl

theorem State.readRecord_handed {s : State} {x : Nat} (h : s.engine.index = some x) : HeaderReadsHanded s s.readRecord x := by
  rw [State.readRecord_eq h]
  rfl

/-- The walk that passes to WALKING reads the record at its index (R86). -/
theorem State.startWalking_reads {s : State} {r : RegionId} {x : Nat} (h : s.engine.index = some x) :
    (s.startWalking r).region r = { s.region r with sub := .walking } ∧ OtherRegions r s (s.startWalking r) ∧
      HeaderReadsHanded s (s.startWalking r) x := by
  have stands (q : RegionId) : (s.startWalking r).region q = (s.setSub r .walking).region q :=
    (s.setSub r .walking).region_readRecord q
  have others : OtherRegions r s (s.setSub r .walking) := OtherRegions.updRegion s r _
  refine ⟨(stands r).trans (State.region_updRegion_self s r _), fun q hq => ?_,
    State.readRecord_handed (s := s.setSub r .walking) h⟩
  rw [stands]
  exact others q hq

/-! ## The start of a walk (R85) -/

/-- What keeps a walk draining rests on the live window and the tags. -/
theorem WindowQuarantined.congr {s t : State} {r : RegionId} (live : (t.region r).live = (s.region r).live)
    (tags : ∀ g, t.tag g = s.tag g) : WindowQuarantined t r ↔ WindowQuarantined s r := by
  simp only [WindowQuarantined, live, tags]

/-- The drain set of R86 as the statement gives it. -/
theorem State.walkDrainSet_eq (s : State) (r : RegionId) : s.walkDrainSet r =
    if (s.region r).live.enable then (s.table.filter fun e =>
      ((e.state = .ready ∨ e.state = .issued) ∧ (s.region r).live.holds e.addr = true) ∨ e.tag ∈ s.busyMembers r).map
        Entry.tag else [] := by
  unfold State.walkDrainSet
  split_ifs
  · congr 1
    refine List.filter_congr fun e _ => ?_
    rw [Bool.eq_iff_iff]
    simp
  · rfl

/-- The walk of region `r` in DRAINING, its drain still to be looked at (R85). -/
def State.walkBegun (s : State) (r : RegionId) : State :=
  (s.updEngine fun e =>
    { e with queue := e.queue.tail, walk := some r, recovery := s.device == .restoring, drain := s.walkDrainSet r,
             index := (s.region r).lastIndex, header := none, blocks := [], buffer := [], lineIndex := none,
             walked := 0, restore := none }).setSub r .draining

theorem State.startWalk_eq (s : State) (r : RegionId) : s.startWalk r =
    if (s.walkBegun r).drainOver r then (s.walkBegun r).startWalking r else s.walkBegun r := rfl

theorem State.region_walkBegun (s : State) (r : RegionId) : (s.walkBegun r).region r = { s.region r with sub := .draining } :=
  State.region_updRegion_self _ r _

/-- A walk begun is through with its drain when its set is empty and its window clear (R86). -/
theorem State.walkBegun_drainOver (s : State) (r : RegionId) :
    (s.walkBegun r).drainOver r = true ↔ s.walkDrainSet r = [] ∧ ¬WindowQuarantined s r := by
  have live : ((s.walkBegun r).region r).live = (s.region r).live := by rw [State.region_walkBegun]
  have window : WindowQuarantined (s.walkBegun r) r ↔ WindowQuarantined s r := WindowQuarantined.congr live fun _ => rfl
  rw [State.drainOver_iff, window]
  rfl

/-- The engine as region `r`'s walk starts at the record `x` (R85, R86). -/
structure WalkEngine (s : State) (r : RegionId) (x : Nat) (e : Engine) : Prop where
  queue : e.queue = s.engine.queue.tail
  walk : e.walk = some r
  drain : e.drain = s.walkDrainSet r
  index : e.index = some x
  walked : e.walked = 0
  header : e.header = none
  buffer : e.buffer = []
  recovery : e.recovery = (s.device == .restoring)

/-- What the start of region `r`'s walk at the record `x` gives, whether or not its drain is over at once (R85, R86). -/
structure WalkStarted (s t : State) (r : RegionId) (x : Nat) : Prop where
  engine : WalkEngine s r x t.engine
  reads : s.walkDrainSet r = [] → ¬WindowQuarantined s r → (t.region r).sub = .walking ∧ HeaderReadsHanded s t x
  drains : s.walkDrainSet r ≠ [] ∨ WindowQuarantined s r → (t.region r).sub = .draining ∧ t.dport = s.dport
  region : { t.region r with sub := .none } = { s.region r with sub := .none }
  others : OtherRegions r s t

theorem State.startWalk_started {s : State} {r : RegionId} {x : Nat} (h : (s.region r).lastIndex = some x) :
    WalkStarted s (s.startWalk r) r x := by
  have region := s.region_walkBegun r
  have others : OtherRegions r s (s.walkBegun r) := OtherRegions.updRegion _ r _
  rw [State.startWalk_eq]
  split_ifs with ended
  · obtain ⟨empty, clear⟩ := (s.walkBegun_drainOver r).mp ended
    obtain ⟨walking, more, reads⟩ := State.startWalking_reads (s := s.walkBegun r) (r := r) h
    have read := congrArg State.engine (State.readRecord_eq (s := (s.walkBegun r).setSub r .walking) h)
    have engine : WalkEngine s r x ((s.walkBegun r).startWalking r).engine :=
      read ▸ ⟨rfl, rfl, rfl, h, rfl, rfl, rfl, rfl⟩
    refine ⟨engine, fun _ _ => ⟨by rw [walking], reads⟩, fun k => ?_, by rw [walking, region], others.trans more⟩
    exact absurd k (not_or.mpr ⟨not_not.mpr empty, clear⟩)
  · refine ⟨⟨rfl, rfl, rfl, h, rfl, rfl, rfl, rfl⟩, fun empty clear => ?_, fun _ => ⟨by rw [region], rfl⟩, by rw [region],
      others⟩
    exact absurd ((s.walkBegun_drainOver r).mpr ⟨empty, clear⟩) ended

/-! ## The commands -/

theorem State.walkStart_waits {s : State} (h : ¬WalkMayStart s ∨ s.engine.queue = []) : exec .walkStart s = .next s := by
  refine congrArg Host.Outcome.next (State.unlessReset_keeps (P := (· = s)) rfl fun hi => State.nextWalk_eq_self ?_)
  obtain h | h := h
  · by_contra k
    simp only [not_or, Bool.not_eq_false, not_not] at k
    exact h ⟨hi, (s.working_iff).mp k.1, k.2.1⟩
  · exact .inr (.inr h)

/-- A walk that may start does so on its command, and as what follows on an event (R85). -/
theorem State.walkStart_starts {s : State} {r : RegionId} {rest : List RegionId} (h : WalkMayStart s)
    (hq : s.engine.queue = r :: rest) : exec .walkStart s = .next (s.startWalk r) ∧
      (NoneStarts s s.table → s.followOn = (s.startWalk r).followOn) := by
  obtain ⟨hi, device, walk⟩ := h
  have starts : s.nextWalk = s.startWalk r := by
    unfold State.nextWalk
    rw [walk, hq]
    exact if_pos ((s.working_iff).mpr device)
  exact ⟨congrArg Host.Outcome.next ((State.unlessReset_acts hi _).trans starts),
    fun quiet => starts ▸ State.followOn_nextWalk quiet⟩

/-- Settles O46. -/
theorem walkStartsAndDrains : Obligations.WalkStartsAndDrains := by
  refine fun r s => ⟨State.walkStart_waits, fun rest x may queue last => ?_, fun x hi device walk index sub => ?_⟩
  · obtain ⟨acts, follows⟩ := State.walkStart_starts may queue
    have started := State.startWalk_started last
    have engine := started.engine
    have drain := s.walkDrainSet_eq r
    extract_lets set
    change s.walkDrainSet r = set at drain
    rw [← drain]
    refine ⟨_, acts, follows, ?_, engine.walk, engine.drain, engine.index, engine.walked, engine.header, engine.buffer, ?_,
      started.reads, started.drains, started.region, started.others, Keeps.startWalk s r⟩
    · rw [engine.queue, queue, List.tail_cons]
    · rw [engine.recovery, beq_iff_eq]
  · have acts : exec .walkDrainComplete s = .next s.passDrain := congrArg Host.Outcome.next (State.unlessReset_acts hi _)
    refine ⟨fun stays => ?_, fun empty clear => ?_⟩
    · rw [acts, State.passDrain_eq_self fun q hq => ?_]
      obtain rfl : r = q := Option.some.inj (walk.symm.trans hq)
      refine .inr (.inr ?_)
      rw [← Bool.not_eq_true, State.drainOver_iff, not_and_or, not_not]
      exact stays
    · have passes : s.passDrain = s.startWalking r := by
        unfold State.passDrain
        rw [walk]
        refine if_pos ?_
        simp [(s.working_iff).mpr device, sub, (s.drainOver_iff r).mpr ⟨empty, clear⟩]
      obtain ⟨region, others, reads⟩ := State.startWalking_reads (r := r) index
      exact ⟨_, acts.trans (congrArg _ passes), fun quiet => State.followOn_startWalking quiet walk passes, region, reads,
        others, Keeps.startWalking s r⟩

end Sys2Proof.Machine
end

section
/-! SUPPORT. A walk that fails, the log blocks of the record being read, and the line being restored (R88 to R91, R93, R95,
R96). -/

namespace Sys2Proof.Machine

/-! ## The entry to FAULTED (R24) and a failed walk (R95, R96) -/

/-- What the entry of region `r` to FAULTED leaves of its context, its directory entries and its waiting requests. -/
structure EnteredFaulted (s t : State) (r : RegionId) : Prop where
  region : (t.region r).bare = { s.region r with
    txn := .faulted, sub := .none, drain := [], recordPhase := false, expiryDue := false }
  others : OtherRegions r s t
  directory : t.directory = s.directory.filter fun d => d.region ≠ r
  released : ∀ e ∈ t.table, e.cls = some (.region r) → e.state ≠ .waitRegion

theorem State.enterFaulted_entered (s : State) (r : RegionId) : EnteredFaulted s (s.enterFaulted r) r := by
  unfold State.enterFaulted
  extract_lets a b
  have answered := Keeps.answerErrors b (b.faultedEntries r) b.faultedReason
  have context : a.region r = { s.region r with
      txn := .faulted, sub := .none, drain := [], recordPhase := false, expiryDue := false } := State.region_updRegion_self s r _
  have others : OtherRegions r s a := OtherRegions.updRegion s r _
  refine ⟨?_, OtherRegions.trans (t := b) others (answered.others r rfl), answered.part .directory rfl,
    fun e he cls waits => ?_⟩
  · rw [answered.bare rfl]
    exact congrArg Region.bare context
  · rw [State.table_answerErrors, List.mem_filter] at he
    obtain ⟨inside, left⟩ := he
    have refused : e ∈ b.faultedEntries r := List.mem_filter.mpr ⟨inside, by simp [cls, waits]⟩
    have tag : ((b.faultedEntries r).map Entry.tag).contains e.tag = true :=
      List.contains_iff_mem.mpr (List.mem_map_of_mem refused)
    rw [tag] at left
    cases left

theorem State.failWalk_failed (s : State) (r : RegionId) (f : FaultEntry) : WalkFailed s (s.failWalk r f) r f := by
  have pushed := Keeps.pushFault s f
  have raised : (s.pushFault f).flag faultSource = true := State.flag_setNotice_self _ _
  have faults : (s.pushFault f).faults = pushEntry s.faults f := rfl
  have contexts (q : RegionId) : (s.pushFault f).region q = s.region q := rfl
  unfold State.failWalk
  generalize s.pushFault f = a at *
  have k := a.enterFaulted_entered r
  have entered := Keeps.enterFaulted a r
  have ended := Keeps.endWalk (a.enterFaulted r)
  have engine := (a.enterFaulted r).engine_endWalk
  have region := k.region
  rw [contexts, ← State.region_endWalk] at region
  refine ⟨⟨?_, ?_, ?_, ?_, ?_⟩, ⟨?_, ?_⟩, ?_, ?_, ⟨?_, ?_⟩, ?_, ?_⟩
  · exact (congrArg Region.txn region :)
  · exact (congrArg Region.sub region :)
  · exact (congrArg Region.records region :)
  · exact (congrArg Region.firstIndex region :)
  · exact (congrArg Region.lastIndex region :)
  · exact ((ended.part .faults rfl).trans (entered.part .faults rfl)).trans faults
  · rw [ended.flag _ rfl, entered.flag _ rfl, raised]
  · rw [ended.part .directory rfl, k.directory, pushed.part .directory rfl]
  · rw [ended.part .table rfl]
    exact k.released
  · rw [engine]
  · rw [engine]
    exact (entered.queue rfl).trans (pushed.queue rfl)
  · exact ((pushed.others r rfl).trans k.others).trans (ended.others r rfl)
  · exact (pushed.mono (by decide)).trans ((entered.mono (by decide)).trans (ended.mono (by decide)))

/-- A walk failed after the engine has taken an outcome has failed from the event's start. -/
theorem WalkFailed.of_keeps {s v t : State} {r : RegionId} {f : FaultEntry} (h : WalkFailed v t r f)
    (k : Keeps [.engine, .dport] s v) (queue : v.engine.queue = s.engine.queue) : WalkFailed s t r f := by
  obtain ⟨⟨txn, sub, records, first, last⟩, ⟨faults, flag⟩, directory, table, ⟨walk, same⟩, others, kept⟩ := h
  have region := k.bare rfl r
  refine ⟨⟨txn, sub, ?_, ?_, ?_⟩, ⟨?_, flag⟩, ?_, table, ⟨walk, same.trans queue⟩, (k.others r rfl).trans others,
    (k.mono (by decide)).trans kept⟩
  · exact records.trans (congrArg Region.records region :)
  · exact first.trans (congrArg Region.firstIndex region :)
  · exact last.trans (congrArg Region.lastIndex region :)
  · rw [faults, k.part .faults rfl]
  · rw [directory, k.part .directory rfl]

/-! ## The response reaches the walk (R167) -/

theorem State.respond_rollback {s : State} {g : DownTag} {cls : IssueClass} {op : Op} {addr timer at_ : Nat}
    (hi : s.inReset = false) (hd : s.device = .run ∨ s.device = .restoring)
    (h : s.tag g = .outstanding .rollback cls op addr timer at_ true) (ok : Bool) (d : Line) :
    exec (.downstreamResponse g ok d) s =
      .next ((s.setTag g .free).rollbackOutcome addr (if ok then some d else none)).followOn := by
  have delivers (o : Option Line) :
      (s.setTag g .free).deliver .rollback true addr o = (s.setTag g .free).rollbackOutcome addr o :=
    if_pos ⟨rfl, not_quiescing_of_working hd⟩
  rw [exec_downstreamResponse hi, ← delivers]
  unfold State.respond
  rw [h]

section
variable {s : State} {r : RegionId} {x : Nat}

/-- While no line is restored, an outcome is of a log-block read. -/
theorem State.rollbackOutcome_block (walk : s.engine.walk = some r) (index : s.engine.index = some x)
    (h : s.engine.restore = none ∨ s.engine.header = none) (addr : Nat) (outcome : Option Line) :
    s.rollbackOutcome addr outcome = s.logBlockOutcome r x addr outcome := by
  unfold State.rollbackOutcome
  rw [walk, index]
  dsimp only
  split
  · next restore header _ => simp [restore, header] at h
  · rfl

theorem State.rollbackOutcome_line (walk : s.engine.walk = some r) (index : s.engine.index = some x) {h : Header} {i : Nat}
    {u : VerifiedUnit} (header : s.engine.header = some h) (line : s.engine.lineIndex = some i)
    (restore : s.engine.restore = some u) (addr : Nat) (outcome : Option Line) :
    s.rollbackOutcome addr outcome = s.restoreOutcome r h u i addr outcome := by
  unfold State.rollbackOutcome
  rw [walk, index, header, line, restore]

/-! ## The log blocks of a record (R88) -/

/-- The blocks of a record that fits in the ring lie at different addresses. -/
theorem State.recordBlock_ne {i k : Nat} (hik : i < k) (hk : k < s.log.ring) : s.recordBlock x i ≠ s.recordBlock x k := by
  have ring : s.log.geometry ≠ none := by
    intro none
    rw [LogState.ring, none] at hk
    exact absurd hk (Nat.not_lt_zero k)
  rw [State.recordBlock, State.recordBlock, Ne, State.blockAddr_inj ring]
  intro same
  have same : i % s.log.ring = k % s.log.ring := Nat.ModEq.add_left_cancel' x same
  rw [Nat.mod_eq_of_lt (hik.trans hk), Nat.mod_eq_of_lt hk] at same
  exact hik.ne same

section
variable {pre : List BlockRead} {n : Nat}

/-- The last block asked for is found by its address. -/
theorem State.blockOf_last (hb : s.engine.blocks = pre ++ [⟨n, none⟩]) (fits : pre.length < s.log.ring) :
    s.blockOf x (s.recordBlock x pre.length) = some pre.length := by
  unfold State.blockOf
  rw [hb, List.length_append]
  exact find?_range_last _ (beq_self_eq_true _) fun i hi => beq_eq_false_iff_ne.mpr (State.recordBlock_ne hi fits)

/-- The engine with the reads of its record's blocks. -/
def State.withReads (s : State) (blocks : List BlockRead) : State := s.updEngine fun e => { e with blocks := blocks }

theorem Keeps.withReads (s : State) (blocks : List BlockRead) : Keeps [.engine] s (s.withReads blocks) := .updEngine s rfl

theorem State.logBlockOutcome_in (hb : s.engine.blocks = pre ++ [⟨n, none⟩]) (fits : pre.length < s.log.ring) (d : Line) :
    s.logBlockOutcome r x (s.recordBlock x pre.length) (some d) = (s.withReads (pre ++ [⟨n, some d⟩])).blockIn r x := by
  unfold State.logBlockOutcome
  rw [State.blockOf_last hb fits]
  simp [hb, State.updEngine, State.withReads]

/-- A failed read of a block is made again while the limit allows, and otherwise the walk fails (R95, R104). -/
theorem State.logBlockOutcome_failed (hb : s.engine.blocks = pre ++ [⟨n, none⟩]) (fits : pre.length < s.log.ring) :
    s.logBlockOutcome r x (s.recordBlock x pre.length) none =
      if n - 1 < s.params.retryLimit then (s.withReads (pre ++ [⟨n + 1, none⟩])).handRoll
        [readBlock .rollback (s.recordBlock x pre.length)]
      else s.failWalk r ⟨.rollbackRead, some r, some (s.recordBlock x pre.length),
        s.engine.header.bind Header.faultSequence, n, false⟩ := by
  unfold State.logBlockOutcome
  rw [State.blockOf_last hb fits]
  simp [hb, State.updEngine, State.withReads, faultEntry]

end

/-- The contents of blocks that are all in. -/
theorem filterMap_contents {blocks : List BlockRead} {data : List Line} (h : blocks.map BlockRead.contents = data.map some) :
    blocks.filterMap BlockRead.contents = data :=
  calc blocks.filterMap BlockRead.contents
    _ = (blocks.map BlockRead.contents).filterMap id := by simp
    _ = data := by rw [h]; simp

theorem State.blockIn_header (header : s.engine.header = none) {a b : Line}
    (hb : s.engine.blocks.map BlockRead.contents = [a, b].map some) : s.blockIn r x = s.headerIn r x a b := by
  unfold State.blockIn
  rw [header, filterMap_contents hb]

theorem State.blockIn_data {h : Header} (header : s.engine.header = some h) {a b : Line} {data : List Line}
    (hb : s.engine.blocks.map BlockRead.contents = (a :: b :: data).map some) (full : data.length = h.count) :
    s.blockIn r x = s.dataIn r x h data := by
  unfold State.blockIn
  rw [header, filterMap_contents hb]
  exact if_pos full

/-! ## The check of a record (R89, Table 4-2) -/

theorem State.linesGood_iff (s : State) (h : Header) : s.linesGood h = true ↔
    (∀ a ∈ h.lines, a % 32 = 0 ∧ a < s.memorySize - 64 ∧ ∀ g, s.log.geometry = some g → g.holds a = false) ∧
      h.lines.Nodup := by
  have area (a : Nat) : s.inLogArea a = false ↔ ∀ g, s.log.geometry = some g → g.holds a = false := by
    unfold State.inLogArea
    cases s.log.geometry <;> simp
  simp [State.linesGood, area, and_assoc]

theorem State.chainPosition_iff {h : Header} : s.chainPosition r x h = true ↔
    (s.region r).firstIndex = some h.firstIndex ∧ (x = h.firstIndex → h.first = true ∧ h.previous = 0xFFFFFFFF) ∧
      (x ≠ h.firstIndex → h.first = false ∧ h.previous < s.log.ring) := by
  rw [State.chainPosition, Bool.and_eq_true, beq_iff_eq, and_congr_right_iff]
  intro chain
  rw [chain]
  by_cases here : x = h.firstIndex
  · simp [here, none32]
  · simp [here]

theorem State.headerPasses_iff {h : Header} : s.headerPasses r x h = true ↔ PassesCheck s r x h := by
  simp only [State.headerPasses, Bool.and_eq_true, decide_eq_true_eq, beq_iff_eq, State.linesGood_iff,
    State.chainPosition_iff]
  constructor
  · rintro ⟨⟨⟨⟨⟨⟨⟨⟨⟨⟨crc, kind⟩, region⟩, number⟩, generation⟩, low⟩, high⟩, fits⟩, lines⟩, chain, first, later⟩, count⟩
    exact ⟨crc, ⟨kind, region, number⟩, generation, ⟨low, high, fits⟩, lines, chain, first, later, count⟩
  · rintro ⟨crc, ⟨kind, region, number⟩, generation, ⟨low, high, fits⟩, lines, chain, first, later, count⟩
    exact ⟨⟨⟨⟨⟨⟨⟨⟨⟨⟨crc, kind⟩, region⟩, number⟩, generation⟩, low⟩, high⟩, fits⟩, lines⟩, chain, first, later⟩, count⟩

end

/-! ## A record's blocks answered (R88, R89, R95) -/

/-- The state once an outcome has freed its tag and the engine has noted the reads of its blocks. -/
def State.blocksIn (s : State) (g : DownTag) (blocks : List BlockRead) : State := (s.setTag g .free).withReads blocks

theorem Keeps.blocksIn (s : State) (g : DownTag) (blocks : List BlockRead) : Keeps [.engine, .dport] s (s.blocksIn g blocks) :=
  ((Keeps.setTag s g .free).mono (by decide)).trans ((Keeps.withReads _ blocks).mono (by decide))

theorem WalkFailed.of_blocksIn {s t : State} {g : DownTag} {blocks : List BlockRead} {r : RegionId} {f : FaultEntry}
    (h : WalkFailed (s.blocksIn g blocks) t r f) : WalkFailed s t r f := h.of_keeps (.blocksIn s g blocks) rfl

theorem WalkFailed.of_setTag {s t : State} {g : DownTag} {r : RegionId} {f : FaultEntry}
    (h : WalkFailed (s.setTag g .free) t r f) : WalkFailed s t r f :=
  h.of_keeps ((Keeps.setTag s g .free).mono (by decide)) rfl

/-- The engine takes an outcome for a block of the record at ring index `x` in region `r`'s walk, the last block asked for,
after `n` reads of it: a response on tag `g` brings that outcome. -/
structure BringsRecordBlock (s : State) (g : DownTag) (r : RegionId) (x : Nat) (pre : List BlockRead) (n : Nat) : Prop where
  noReset : s.inReset = false
  device : s.device = .run ∨ s.device = .restoring
  tag : ∃ cls op timer at_, s.tag g = .outstanding .rollback cls op (s.recordBlock x pre.length) timer at_ true
  walk : s.engine.walk = some r
  index : s.engine.index = some x
  reading : s.engine.restore = none ∨ s.engine.header = none
  blocks : s.engine.blocks = pre ++ [⟨n, none⟩]
  fits : pre.length < s.log.ring

section
variable {s : State} {g : DownTag} {r : RegionId} {x n : Nat} {pre : List BlockRead}

theorem BringsRecordBlock.takes (h : BringsRecordBlock s g r x pre n) (d : Line) : exec (.downstreamResponse g true d) s =
    .next ((s.blocksIn g (pre ++ [⟨n, some d⟩])).blockIn r x).followOn := by
  obtain ⟨hi, hd, ⟨_, _, _, _, tag⟩, walk, index, reading, blocks, fits⟩ := h
  rw [State.respond_rollback hi hd tag, if_pos rfl,
    State.rollbackOutcome_block (s := s.setTag g .free) walk index reading]
  exact congrArg (fun t => Host.Outcome.next (State.followOn t))
    (State.logBlockOutcome_in (s := s.setTag g .free) blocks fits d)

theorem BringsRecordBlock.misses (h : BringsRecordBlock s g r x pre n) (d : Line) : exec (.downstreamResponse g false d) s =
    .next (State.followOn (if n - 1 < s.params.retryLimit then (s.blocksIn g (pre ++ [⟨n + 1, none⟩])).handRoll
        [readBlock .rollback (s.recordBlock x pre.length)]
      else (s.setTag g .free).failWalk r ⟨.rollbackRead, some r, some (s.recordBlock x pre.length),
        s.engine.header.bind Header.faultSequence, n, false⟩)) := by
  obtain ⟨hi, hd, ⟨_, _, _, _, tag⟩, walk, index, reading, blocks, fits⟩ := h
  rw [State.respond_rollback hi hd tag, if_neg Bool.false_ne_true,
    State.rollbackOutcome_block (s := s.setTag g .free) walk index reading]
  exact congrArg (fun t => Host.Outcome.next (State.followOn t))
    (State.logBlockOutcome_failed (s := s.setTag g .free) blocks fits)

/-- The second header block has the record checked (R89). -/
theorem BringsRecordBlock.checksHeader {m : Nat} {b0 : Line} (h : BringsRecordBlock s g r x [⟨m, some b0⟩] n)
    (header : s.engine.header = none) (d : Line) : exec (.downstreamResponse g true d) s =
      .next ((s.blocksIn g [⟨m, some b0⟩, ⟨n, some d⟩]).headerIn r x b0 d).followOn := by
  rw [h.takes]
  exact congrArg (fun t => Host.Outcome.next (State.followOn t))
    (State.blockIn_header (s := s.blocksIn g [⟨m, some b0⟩, ⟨n, some d⟩]) header rfl)

/-- The last data block has the data CRC tested (R89). -/
theorem BringsRecordBlock.testsData {h : Header} {b0 b1 : Line} {data : List Line} (k : BringsRecordBlock s g r x pre n)
    (header : s.engine.header = some h) (contents : pre.map BlockRead.contents = (b0 :: b1 :: data).map some)
    (full : data.length + 1 = h.count) (d : Line) : exec (.downstreamResponse g true d) s =
      .next ((s.blocksIn g (pre ++ [⟨n, some d⟩])).dataIn r x h (data ++ [d])).followOn := by
  have all : (pre ++ [⟨n, some d⟩] : List BlockRead).map BlockRead.contents = (b0 :: b1 :: (data ++ [d])).map some := by
    rw [List.map_append, contents]
    simp
  rw [k.takes]
  generalize pre ++ [⟨n, some d⟩] = blocks at all ⊢
  exact congrArg (fun t => Host.Outcome.next (State.followOn t))
    (State.blockIn_data (s := s.blocksIn g blocks) header all (by simpa using full))

/-- The fault of a record at ring index `x` that fails its check (R95). -/
def State.checkFault (s : State) (r : RegionId) (x : Nat) (h : Header) : FaultEntry :=
  ⟨.rollbackRead, some r, some (s.recordBlock x 0), if h.crcGood then some h.sequence else none, 1, false⟩

/-- A header that passes has its data blocks read together (R88, R89). -/
theorem State.headerIn_passes (blocks : List BlockRead) {a b : Line} (passes : PassesCheck s r x (readHeader a b)) :
    let t := (s.blocksIn g blocks).headerIn r x a b
    t.engine.header = some (readHeader a b) ∧ t.dport.rollQueue = s.dport.rollQueue ++
      (List.range (readHeader a b).count).map (fun i => readBlock .rollback (s.recordBlock x (2 + i))) ∧
      Keeps [.engine, .dport] s t := by
  have test : (s.blocksIn g blocks).headerPasses r x (readHeader a b) = true := State.headerPasses_iff.mpr
    ⟨passes.crc, passes.identity, passes.generation, passes.fit, passes.lines, passes.chain, passes.first, passes.later,
      passes.count⟩
  unfold State.headerIn
  dsimp only
  rw [if_pos test]
  exact ⟨rfl, rfl, (Keeps.blocksIn s g blocks).trans (((Keeps.updEngine _ rfl).mono (by decide)).trans
    ((Keeps.handRoll _ _).mono (by decide)))⟩

theorem State.headerIn_fails (blocks : List BlockRead) {a b : Line} (fails : ¬PassesCheck s r x (readHeader a b)) :
    WalkFailed s ((s.blocksIn g blocks).headerIn r x a b) r (s.checkFault r x (readHeader a b)) := by
  have test : ¬(s.blocksIn g blocks).headerPasses r x (readHeader a b) = true := fun k => fails (State.headerPasses_iff.mp k)
  unfold State.headerIn
  dsimp only
  rw [if_neg test]
  exact (State.failWalk_failed (s.blocksIn g blocks) r _).of_blocksIn

/-- Data whose CRC agrees has its last line written (R89, R90). -/
theorem State.dataIn_agrees (blocks : List BlockRead) {h : Header} {data : List Line} {d : Line}
    (full : data.length + 1 = h.count) (agrees : dataCrc (data ++ [d]) = h.dataCrc) :
    let t := (s.blocksIn g blocks).dataIn r x h (data ++ [d])
    t.engine.lineIndex = some data.length ∧ t.engine.buffer = data ++ [d] ∧ t.dport.rollQueue = s.dport.rollQueue ++
      [writeBlock .rollback (h.lines.getD data.length 0) d] ∧ Keeps [.engine, .dport] s t := by
  have last : (data ++ [d]).getD data.length 0 = d := by simp
  have index : h.count - 1 = data.length := by omega
  unfold State.dataIn
  rw [if_pos agrees, index]
  refine ⟨rfl, rfl, ?_, (Keeps.blocksIn s g blocks).trans (((Keeps.updEngine _ rfl).mono (by decide)).trans
    (((Keeps.updEngine _ rfl).mono (by decide)).trans ((Keeps.handRoll _ _).mono (by decide))))⟩
  show s.dport.rollQueue ++ [writeBlock .rollback (h.lines.getD data.length 0) ((data ++ [d]).getD data.length 0)] = _
  rw [last]

theorem State.dataIn_fails (blocks : List BlockRead) {h : Header} {data : List Line} (fails : dataCrc data ≠ h.dataCrc) :
    WalkFailed s ((s.blocksIn g blocks).dataIn r x h data) r (s.checkFault r x h) := by
  unfold State.dataIn
  rw [if_neg fails]
  exact (State.failWalk_failed (s.blocksIn g blocks) r _).of_blocksIn

end

/-! ## A line restored (R90, R91, R93) -/

/-- Line `j` is written (R90). -/
theorem State.startRestore_writes (s : State) (h : Header) (j : Nat) :
    (s.startRestore h j).engine.lineIndex = some j ∧ (s.startRestore h j).dport.rollQueue = s.dport.rollQueue ++
      [writeBlock .rollback (h.lines.getD j 0) (s.engine.buffer.getD j 0)] ∧
      (s.startRestore h j).engine.walked = s.engine.walked ∧ Keeps [.engine, .dport] s (s.startRestore h j) :=
  ⟨rfl, rfl, rfl, ((Keeps.updEngine s rfl).mono (by decide)).trans ((Keeps.handRoll _ _).mono (by decide))⟩

/-- The record counts as walked. -/
def State.countWalked (s : State) : State := s.updEngine fun e => { e with walked := e.walked + 1 }

theorem State.recordRestored_eq (s : State) (r : RegionId) (h : Header) : s.recordRestored r h =
    if h.first then s.countWalked.closeWalk r
    else (s.countWalked.updEngine fun e => { e with index := some h.previous }).readRecord := rfl

/-- A record restored that is not FIRST: the walk reads the record before it (R91). -/
theorem State.recordRestored_moves (s : State) (r : RegionId) {h : Header} (hf : h.first = false) :
    let t := s.recordRestored r h
    t.engine = { s.engine with
      walked := s.engine.walked + 1, index := some h.previous, header := none, buffer := [], lineIndex := none,
      restore := none, blocks := [⟨1, none⟩, ⟨1, none⟩] } ∧
      HeaderReadsHanded s t h.previous ∧ (∀ g, t.tag g = s.tag g) ∧ Keeps [.engine, .dport] s t := by
  have read := State.readRecord_eq (s := s.countWalked.updEngine fun e => { e with index := some h.previous }) rfl
  have keeps : Keeps [.engine, .dport] s (s.recordRestored r h) := by
    rw [State.recordRestored_eq, if_neg (by simp [hf])]
    exact ((Keeps.updEngine s rfl).mono (by decide)).trans (((Keeps.updEngine _ rfl).mono (by decide)).trans
      (Keeps.readRecord _))
  have moves : s.recordRestored r h = _ := (if_neg (by simp [hf])).trans read
  refine ⟨?_, ?_, fun g => ?_, keeps⟩ <;> rw [moves] <;> rfl

/-- The FIRST record restored: the walk closes and hands the Log Writer its ABORT request (R91, R93). -/
theorem State.recordRestored_closes (s : State) (r : RegionId) {h : Header} (hf : h.first = true) :
    let t := s.recordRestored r h
    t.engine = { s.engine with walked := s.engine.walked + 1, lineIndex := none, restore := none } ∧
      t.region r = { s.region r with sub := .closing } ∧
      t.writer = { s.writer with closing := s.writer.closing ++
        [⟨r, (s.region r).number, .abort, (s.region r).firstIndex.getD 0, s.engine.recovery⟩] } ∧
      OtherRegions r s t ∧ (∀ g, t.tag g = s.tag g) ∧ Keeps [.regions, .engine, .writer, .dport] s t := by
  have closes : s.recordRestored r h = s.countWalked.closeWalk r := if_pos hf
  have region : (s.countWalked.setSub r .closing).region r = { s.region r with sub := .closing } :=
    State.region_updRegion_self s.countWalked r _
  have others : OtherRegions r s (s.countWalked.setSub r .closing) := OtherRegions.updRegion s.countWalked r _
  dsimp only
  rw [closes]
  refine ⟨rfl, region, rfl, others, fun _ => rfl, ?_⟩
  exact ((Keeps.updEngine s rfl).mono (by decide)).trans (((Keeps.setSub _ r .closing).mono (by decide)).trans
    (((Keeps.updEngine _ rfl).mono (by decide)).trans ((Keeps.updWriter _ _).mono (by decide))))

/-- A record restored counts as walked, whether or not it is FIRST (R91). -/
theorem State.recordRestored_counts (s : State) (r : RegionId) (h : Header) :
    let t := s.recordRestored r h
    t.engine.walked = s.engine.walked + 1 ∧ t.engine.walk = s.engine.walk ∧ t.engine.restore = none ∧
      ∀ g, t.tag g = s.tag g := by
  cases hf : h.first with
  | false =>
    obtain ⟨engine, -, tags, -⟩ := s.recordRestored_moves r hf
    dsimp only
    rw [engine]
    exact ⟨rfl, rfl, rfl, tags⟩
  | true =>
    obtain ⟨engine, -, -, -, tags, -⟩ := s.recordRestored_closes r hf
    dsimp only
    rw [engine]
    exact ⟨rfl, rfl, rfl, tags⟩

theorem State.restoreOutcome_durable {s : State} {h : Header} {u : VerifiedUnit} {i addr : Nat} {o : Option Line}
    (k : u.take s.params.retryLimit addr o = .durable) (r : RegionId) :
    s.restoreOutcome r h u i addr o = s.lineRestored r h i := by
  unfold State.restoreOutcome
  rw [k]

theorem State.restoreOutcome_exhausted {s : State} {h : Header} {u : VerifiedUnit} {i n addr : Nat} {o : Option Line}
    (k : u.take s.params.retryLimit addr o = .exhausted n) (r : RegionId) : s.restoreOutcome r h u i addr o =
      s.failWalk r ⟨.rollbackWrite, some r, some (h.lines.getD i 0), some h.sequence, n, false⟩ := by
  unfold State.restoreOutcome
  rw [k]
  rfl

/-- Settles O47. -/
theorem restoredLineLeadsTheWalkOn : Obligations.RestoredLineLeadsTheWalkOn := by
  intro g d r x n a cls op timer at_ s hi hd ht walk index at_block checkFault
  refine ⟨fun b0 m header blocks ring ha => ?_, fun h pre b0 b1 data header restore blocks contents full fits ha => ?_,
    fun h i u header line restore left => ⟨fun readBack good found => ?_, fun limit => ?_⟩⟩
  · subst ha
    have brings : BringsRecordBlock s g r x [⟨m, some b0⟩] n :=
      ⟨hi, hd, ⟨_, _, _, _, ht⟩, walk, index, .inr header, blocks, ring⟩
    have checks := brings.checksHeader header d
    have misses := brings.misses d
    refine ⟨fun passes => ⟨_, checks, State.headerIn_passes _ passes⟩,
      fun fails => ⟨_, checks, State.headerIn_fails _ fails⟩, fun limit => ?_, fun limit => ?_⟩
    · rw [if_pos limit] at misses
      exact ⟨_, misses, rfl, (Keeps.blocksIn s g _).trans ((Keeps.handRoll _ _).mono (by decide))⟩
    · rw [if_neg (Nat.not_lt.mpr limit), header] at misses
      exact ⟨_, misses, (State.failWalk_failed (s.setTag g .free) r _).of_setTag⟩
  · have length : pre.length = 1 + h.count := by
      have := congrArg List.length contents
      simp only [List.length_map, List.length_cons] at this
      omega
    have block : a = s.recordBlock x pre.length := by rw [length]; exact ha
    subst block
    have brings : BringsRecordBlock s g r x pre n :=
      ⟨hi, hd, ⟨_, _, _, _, ht⟩, walk, index, .inl restore, blocks, by omega⟩
    have tests := brings.testsData header contents full d
    exact ⟨fun agrees => ⟨_, tests, State.dataIn_agrees _ full agrees⟩, fun fails => ⟨_, tests, State.dataIn_fails _ fails⟩⟩
  · have acts := State.respond_rollback hi hd ht true d
    have durable := VerifiedUnit.take_durable readBack left good found (s.setTag g .free).params.retryLimit
    rw [if_pos rfl, State.rollbackOutcome_line (s := s.setTag g .free) walk index header line restore,
      State.restoreOutcome_durable durable] at acts
    have freed : Keeps [.dport] s (s.setTag g .free) := .setTag s g .free
    have free := (s.tag_setFree g).1
    cases i with
    | zero =>
      obtain ⟨walked, same, restored, tags⟩ := (s.setTag g .free).recordRestored_counts r h
      refine ⟨(s.setTag g .free).recordRestored r h, acts, (tags g).trans free, nofun, fun _ =>
        ⟨walked, same.trans walk, restored, fun first => ?_, fun first => ?_⟩⟩
      · obtain ⟨engine, reads, -, keeps⟩ := (s.setTag g .free).recordRestored_moves r first
        rw [engine]
        exact ⟨rfl, rfl, rfl, reads, (freed.mono (by decide)).trans keeps⟩
      · obtain ⟨-, region, writer, others, -, keeps⟩ := (s.setTag g .free).recordRestored_closes r first
        exact ⟨region, writer, (freed.others r rfl).trans others, (freed.mono (by decide)).trans keeps⟩
    | succ i =>
      obtain ⟨lineIndex, writes, walked, keeps⟩ := (s.setTag g .free).startRestore_writes h i
      refine ⟨(s.setTag g .free).startRestore h i, acts, free, fun j hj => ?_, nofun⟩
      obtain rfl : i = j := Nat.succ.inj hj
      exact ⟨lineIndex, writes, walked, (freed.mono (by decide)).trans keeps⟩
  · have acts := State.respond_rollback hi hd ht false d
    have exhausted : u.take (s.setTag g .free).params.retryLimit a none = .exhausted u.attempts :=
      (VerifiedUnit.take_err left _ a).trans (if_neg (Nat.not_lt.mpr limit))
    rw [if_neg Bool.false_ne_true, State.rollbackOutcome_line (s := s.setTag g .free) walk index header line restore,
      State.restoreOutcome_exhausted exhausted] at acts
    exact ⟨_, acts, (State.failWalk_failed (s.setTag g .free) r _).of_setTag⟩

end Sys2Proof.Machine
end

section
/-! SUPPORT. The Fault Queue: what a push leaves in it (R114), and what READ_FAULT and POP_FAULT answer (R116, R117). -/

namespace Sys2Proof.Machine

/-! ## A push (R114) -/

theorem pushEntry_of_room {q : List FaultEntry} (h : q.length < 4) (e : FaultEntry) : pushEntry q e = q ++ [e] := if_pos h

/-- The newest entry of a full queue gives its place. -/
theorem pushEntry_of_full {q : List FaultEntry} (h : q.length = 4) (e : FaultEntry) :
    pushEntry q e = q.take 3 ++ [{ e with overwritten := true }] := by
  have older : q.dropLast = q.take 3 := by rw [List.dropLast_eq_take, h]
  rw [← older]
  exact if_neg (show ¬q.length < 4 by omega)

/-- A push sets FAULT's flag and no other. -/
theorem State.flag_pushFault (s : State) (e : FaultEntry) (n : Source) :
    (s.pushFault e).flag n = (s.flag n || n == faultSource) := by
  obtain rfl | h := eq_or_ne n faultSource
  · rw [State.pushFault, State.flag_setNotice_self, beq_self_eq_true, Bool.or_true]
  · rw [State.pushFault, State.flag_setNotice_other _ h, beq_false_of_ne h, Bool.or_false]
    rfl

/-- Settles O50. -/
theorem faultPushKeepsTheOldestEntries : Obligations.FaultPushKeepsTheOldestEntries := fun e s _ _ =>
  ⟨fun room => pushEntry_of_room room e, fun full => pushEntry_of_full full e, s.flag_pushFault e, .pushFault s e⟩

/-! ## POP_FAULT (R117) -/

/-- A gated command without data outside RUN, NOLOG and LOG_FAULT. -/
theorem takes_gated_busy {c : Instr} {s : State} {owner : State → Reply} (hl : LinkReady s) (h : ¬Serving s)
    (he : exec c s = .next (s.takeCommand c 0 (gated owner))) : Takes c s .busy [] s := by
  have k := takes_of_reply hl he
  rwa [gated_of_not_serving h] at k

theorem popFaultReply_nil {s : State} (h : s.faults = []) : popFaultReply s = s.reply .state := by
  unfold popFaultReply
  rw [h]

theorem popFaultReply_cons {s : State} (h : s.faults ≠ []) :
    popFaultReply s = done { s with faults := s.faults.tail } := by
  obtain ⟨e, rest, queue⟩ := List.exists_cons_of_ne_nil h
  unfold popFaultReply
  rw [queue]
  rfl

/-- Settles O29. -/
theorem popFaultRemovesTheOldestEntry : Obligations.PopFaultRemovesTheOldestEntry := fun _ hl =>
  ⟨fun h => takes_gated_busy hl h rfl, fun hs h => takes_gated hl hs rfl (popFaultReply_nil h),
    fun hs h => takes_gated hl hs rfl (popFaultReply_cons h)⟩

/-! ## READ_FAULT (R116) -/

theorem FaultKind.code_lt (k : FaultKind) : k.code < 256 := by cases k <;> decide

/-- A region number, or 0xFF for none, fits its byte. -/
theorem orNone8_region_lt (r : Option RegionId) : orNone8 (r.map Fin.val) < 256 := by
  cases r with
  | none => decide
  | some r => exact r.isLt.trans (by decide)

/-- A sequence number, or all ones for none, fits its four bytes. -/
theorem orNone_sequence_lt (q : Option Word32) : orNone (q.map BitVec.toNat) < 4294967296 := by
  cases q with
  | none => decide
  | some q => exact q.isLt

/-- The answer on an empty queue: count 0, kind NONE, and none in every other field that has it. -/
theorem State.faultData_nil {s : State} (h : s.faults = []) :
    s.faultData = [0, 0, 0xFF, 0xFF, 0xFF, 0xFF, 0xFF, 0xFF, 0xFF, 0xFF, 0xFF, 0, 0] := by
  unfold State.faultData
  rw [h]
  rfl

/-- The answer on a queue with an oldest entry: its fields one after another. -/
theorem State.faultData_cons {s : State} {e : FaultEntry} {rest : List FaultEntry} (h : s.faults = e :: rest) :
    s.faultData = beBytes 1 s.faults.length ++ (beBytes 1 e.kind.code ++ (beBytes 1 (orNone8 (e.region.map Fin.val)) ++
      (beBytes 4 (orNone e.addr) ++ (beBytes 4 (orNone (e.sequence.map BitVec.toNat)) ++ (beBytes 1 e.attempts ++
        beBytes 1 (yesNo e.overwritten)))))) := by
  unfold State.faultData
  rw [h]
  simp only [List.append_assoc]

theorem State.length_faultData (s : State) : s.faultData.length = 13 := by
  cases queue : s.faults with
  | nil => rw [State.faultData_nil queue]; rfl
  | cons e rest => rw [State.faultData_cons queue]; simp only [List.length_append, length_beBytes]

/-- Settles O13: on an empty queue the bytes are given, and otherwise each field is read back where it was put. -/
theorem readFaultReportsTheOldestEntry : Obligations.ReadFaultReportsTheOldestEntry := by
  intro s hi hl
  have count : s.faults.length < 256 := hi.faults.trans_lt (by decide)
  have takes : Takes .readFault s .ok s.faultData s :=
    takes_of_reply (owner := readReply State.faultData) hl rfl
  refine ⟨s.faultData, takes, s.length_faultData, ?_, fun empty => ?_, fun e rest queue => ?_⟩
  · cases queue : s.faults with
    | nil => rw [State.faultData_nil queue]; rfl
    | cons e rest =>
      rw [State.faultData_cons queue, field_beBytes_append, ← queue]
      exact Nat.mod_eq_of_lt count
  · rw [State.faultData_nil empty]
    decide
  · rw [State.faultData_cons queue]
    simp only [field_beBytes_skip, field_beBytes_append, field_beBytes, Nat.reduceLeDiff, Nat.reduceSub, Nat.reducePow]
    refine ⟨Nat.mod_eq_of_lt e.kind.code_lt, ?_, orNone_mod e.addr, ?_, trivial, Nat.mod_eq_of_lt (yesNo_lt e.overwritten)⟩
    · rw [Nat.mod_eq_of_lt (orNone8_region_lt e.region)]
      cases e.region <;> rfl
    · rw [Nat.mod_eq_of_lt (orNone_sequence_lt e.sequence)]
      cases e.sequence <;> rfl

end Sys2Proof.Machine
end

section
/-! SUPPORT. Reset and the wait after it (R118): the assertion of RESET_N leaves no work and no driven pin, every event but
those of reset finds the part held, and no request is issued before the wait has passed. -/

namespace Sys2Proof.Machine

/-! ## While RESET_N is asserted (R118, R160, R187) -/

section
variable {s : State} (h : s.inReset = true)
include h

theorem State.unlessReset_inReset (f : State → State) : s.unlessReset f = s := if_pos h

theorem State.linkFree_inReset : s.linkFree = false := by rw [State.linkFree, h]; rfl

theorem State.takeCommand_inReset (c : Instr) (len : Nat) (owner : State → Reply) : s.takeCommand c len owner = s :=
  if_neg (Bool.eq_false_iff.mp (State.linkFree_inReset h))

/-- An unknown command is taken like any other, or is none. -/
theorem State.takeUnknown_inReset (code : Byte) (operands : List Byte) : s.takeUnknown code operands = s := by
  unfold State.takeUnknown
  rw [State.takeCommand_inReset h, State.takeCommand_inReset h, ite_self, ite_self]

theorem State.endFrame_inReset : s.endFrame = s := if_pos h

theorem State.requestReady_inReset : s.requestReady = false := by
  rw [State.requestReady, h]
  rfl

theorem State.alert_inReset : s.alert = false := by rw [State.alert, h]; rfl

theorem State.safe_inReset : s.safe = false := by rw [State.safe, h]; rfl

theorem State.sdo_inReset (p : Nat) : s.sdo p = none := if_pos h

/-- A command is taken by the link, comes with the end of a frame, is a request the part is not ready for, or is an event
that waits for the end of reset: the part stands in each case. -/
theorem exec_inReset {c : Instr} (assert : c ≠ .resetAssert) (release : ∀ m b, c ≠ .resetRelease m b) :
    exec c s = .next s := by
  cases c
  case resetAssert => exact absurd rfl assert
  case resetRelease m b => exact absurd rfl (release m b)
  case unknownCommand code operands => exact congrArg Host.Outcome.next (State.takeUnknown_inReset h code operands)
  case frameDiscard received =>
    refine congrArg Host.Outcome.next ?_
    rw [State.endFrame_inReset h, ite_self]
  case frameEnd => exact congrArg Host.Outcome.next (State.endFrame_inReset h)
  case upstreamRequest q =>
    exact congrArg Host.Outcome.next (if_neg (Bool.eq_false_iff.mp (State.requestReady_inReset h)))
  case firstIssueDelayExpiry | powerFailWarning | entryStart | downstreamIssue | downstreamResponse | responseTimeout | tick
      | ageExpiry | chooseNextWork | commitDrainComplete | walkStart | walkDrainComplete | formatAnchorWrites | recoveryEnd
      | settlingEnd =>
    exact congrArg Host.Outcome.next (State.unlessReset_inReset h _)
  all_goals exact congrArg Host.Outcome.next (State.takeCommand_inReset h _ _ _)

end

/-! ## The assertion of RESET_N (R118) -/

theorem State.inReset_assertReset (s : State) : s.assertReset.inReset = true := rfl

/-- The assertion as one update of the state the abandoned work leaves. -/
theorem State.assertReset_eq (s : State) :
    s.assertReset =
      { s.abandonWork with
        powerFail := { s.powerFail with safe := false }
        inReset := true
        link := { s.link with frame := none } } := by
  unfold State.assertReset
  rw [State.abandonWork_eq]
  rfl

theorem State.tag_assertReset (s : State) (g : DownTag) : s.assertReset.tag g = .free := by
  rw [State.assertReset_eq, State.abandonWork_eq]
  simp [State.tag, Vector.get_eq_getElem]

theorem State.held_assertReset (s : State) (r : RegionId) : s.assertReset.writer.held.get r = none := by
  rw [State.assertReset_eq, State.abandonWork_eq]
  simp [Vector.get_eq_getElem]

/-- Settles O5: the pins follow from `inReset`, and what is left of the work from `abandonWork_eq`. -/
theorem resetSilencesAndHoldsThePart : Obligations.ResetSilencesAndHoldsThePart := by
  refine ⟨fun s => ?_, fun c s h => exec_inReset h⟩
  have asserted := s.inReset_assertReset
  have tags := s.tag_assertReset
  have held := s.held_assertReset
  refine ⟨s.assertReset, rfl, asserted, State.requestReady_inReset asserted, State.safe_inReset asserted,
    State.alert_inReset asserted, State.sdo_inReset asserted, ?_⟩
  rw [State.assertReset_eq, State.abandonWork_eq] at tags held ⊢
  exact ⟨rfl, rfl, rfl, tags, rfl, rfl, rfl, rfl, rfl, rfl, rfl, held, rfl, rfl, rfl, rfl, rfl, rfl⟩

/-! ## The wait after reset (R118, R164) -/

theorem State.issueNext_of_not_allowed {s : State} (h : s.issueAllowed = false) : s.issueNext = s := by
  unfold State.issueNext
  rw [h]
  rfl

/-- Settles O6: an issue is held back by reset itself or by the wait. -/
theorem firstIssueWaitsForTheDelay : Obligations.FirstIssueWaitsForTheDelay := by
  refine ⟨fun s running => congrArg Host.Outcome.next (State.unlessReset_acts running _), fun s waiting => ?_⟩
  have stands : s.unlessReset State.issueNext = s :=
    State.unlessReset_keeps (P := fun t => t = s) rfl fun _ => State.issueNext_of_not_allowed waiting
  exact congrArg Host.Outcome.next stands

end Sys2Proof.Machine
end

section
/-! SUPPORT. The entry to QUIESCING (R138 to R143): what is answered POWER and dropped, what the part goes on with, and what
the stall of the port takes besides (R141, R170). -/

namespace Sys2Proof.Machine

/-! ## Entries answered by what they are -/

/-- With distinct tags, the entries answered ERR are those that leave the table. -/
theorem State.table_answerErrors_filter {s : State} (distinct : (s.table.map Entry.tag).Nodup) (p : Entry → Bool)
    (reason : Entry → Reason) :
    (s.answerErrors (s.table.filter p) reason).table = s.table.filter fun e => !p e := by
  rw [State.table_answerErrors]
  refine List.filter_congr fun x hx => congrArg (!·) ?_
  rw [Bool.eq_iff_iff, List.contains_iff_mem, List.mem_map]
  constructor
  · rintro ⟨y, hy, tags⟩
    obtain ⟨hy, answered⟩ := List.mem_filter.mp hy
    rwa [← List.inj_on_of_nodup_map distinct hy hx tags]
  · exact fun h => ⟨x, List.mem_filter.mpr ⟨hx, h⟩, rfl⟩

/-! ## What the stopped owners leave of the port (R139, R142, R143) -/

/-- A port with the same QUARANTINED tags, and the same requests of the Log Manager in the anchor class queue. -/
structure Downstream.Winds (d d' : Downstream) : Prop where
  quarantine : ∀ g, (d'.tags.get g).isQuarantined = (d.tags.get g).isQuarantined
  anchors : d'.anchorQueue.filter (fun q => q.owner = .logManager) = d.anchorQueue.filter fun q => q.owner = .logManager

namespace Downstream.Winds

theorem refl (d : Downstream) : d.Winds d := ⟨fun _ => rfl, rfl⟩

theorem trans {d e f : Downstream} (a : d.Winds e) (b : e.Winds f) : d.Winds f :=
  ⟨fun g => (b.quarantine g).trans (a.quarantine g), b.anchors.trans a.anchors⟩

end Downstream.Winds

theorem Tag.isQuarantined_discardedBy (o : Owner) (t : Tag) : (t.discardedBy o).isQuarantined = t.isQuarantined := by
  cases t <;> rfl

/-- An owner that stops leaves the Log Manager's requests, unless it is the Log Manager, and the QUARANTINED tags. -/
theorem State.stopOwner_winds (s : State) {o : Owner} (ho : o ≠ .logManager) :
    ∃ d, s.stopOwner o = { s with dport := d } ∧ s.dport.Winds d := by
  refine ⟨_, s.stopOwner_eq o, fun g => ?_, ?_⟩
  · simp [Vector.get_eq_getElem, Tag.isQuarantined_discardedBy, State.tag]
  · rw [List.filter_filter]
    refine List.filter_congr fun q _ => ?_
    by_cases h : q.owner = .logManager <;> simp [h, ho.symm]

/-- A port that winds down is stalled exactly when it was. -/
theorem Downstream.Winds.portStalled {s t : State} (h : s.dport.Winds t.dport) : t.portStalled = s.portStalled := by
  unfold State.portStalled
  exact congrArg allTags.all (funext h.quarantine)

/-! ## The work that is dropped (R139, R142, R143) -/

/-- The Log Writer with no work waiting for its builder. -/
def LogWriter.finishing (w : LogWriter) (builder : Option Build) : LogWriter :=
  { w with builder := builder, closing := [], deferred := none, granted := none, held := Vector.replicate 8 none }

theorem State.writerSettled_shape (s : State) :
    ∃ b, s.writerSettled = { s with writer := { s.writer with builder := b } } := by
  unfold State.writerSettled
  split_ifs
  · exact ⟨none, rfl⟩
  · exact ⟨s.writer.builder, rfl⟩

theorem State.quiesceWriter_shape (s : State) : ∃ b d,
    s.quiesceWriter = { s with writer := s.writer.finishing b, dport := d } ∧ s.dport.Winds d := by
  unfold State.quiesceWriter
  extract_lets u
  split
  · exact ⟨s.writer.builder, s.dport, rfl, .refl _⟩
  · next b _ =>
    extract_lets t
    split_ifs
    · obtain ⟨b', settled⟩ := t.writerSettled_shape
      exact ⟨b', s.dport, settled, .refl _⟩
    · obtain ⟨d, stopped, winds⟩ := t.stopOwner_winds (o := .logWriter) (by decide)
      obtain ⟨b', settled⟩ := (t.stopOwner .logWriter).writerSettled_shape
      rw [stopped] at settled ⊢
      exact ⟨b', d, settled, winds⟩

theorem State.quiesceEngine_shape (s : State) :
    ∃ d, s.quiesceEngine = { s with dport := d } ∧ s.dport.Winds d := by
  have stopped := s.stopOwner_winds (o := .rollback) (by decide)
  have stands : ∃ d, s = { s with dport := d } ∧ s.dport.Winds d := ⟨s.dport, rfl, .refl _⟩
  unfold State.quiesceEngine
  split
  · split_ifs
    · exact stopped
    · exact stands
  · exact stopped

/-! ## The entry to QUIESCING, the stall apart (R138 to R140) -/

/-- The device state, the phase and the Log Manager at the entry to QUIESCING. -/
def State.settlingEntered (s : State) : State :=
  { s with
    device := .quiescing
    powerFail := { s.powerFail with phase := .settling, entry := some s.device }
    log := { s.log with deferred := none, anchorWanted := false, recoveryWanted := false, formatPending := false } }

/-- The entries that must not wait are answered POWER (R140). -/
def State.powerAnswered (s : State) : State :=
  s.settlingEntered.answerErrors s.settlingEntered.powerEntries fun _ => .power

/-- The part in phase SETTLING, a stall of the port not yet looked at. -/
def State.settlingBegun (s : State) : State := s.powerAnswered.quiesceWriter.quiesceEngine.stopOwner .startup

theorem State.quiesce_eq (s : State) :
    s.quiesce = if s.settlingBegun.portStalled then s.settlingBegun.quiesceStall else s.settlingBegun := rfl

/-- An entry goes on in QUIESCING: it is ISSUED, or a READY in-place write (R140). -/
def Entry.goesOn (e : Entry) : Bool := e.state = .issued ∨ e.state = .ready ∧ e.handling = some .inPlace

theorem State.powerEntries_eq (s : State) : s.powerEntries = s.table.filter fun e => !e.goesOn :=
  List.filter_congr fun e _ => by
    by_cases issued : e.state = .issued <;> by_cases ready : e.state = .ready <;>
      by_cases inPlace : e.handling = some .inPlace <;> simp [Entry.goesOn, issued, ready, inPlace]

/-- What the entry to QUIESCING does from `s`, the stall apart. -/
structure SettlingBegun (s t : State) : Prop where
  device : t.device = .quiescing
  powerFail : t.powerFail = { s.powerFail with phase := .settling, entry := some s.device }
  writer : ∃ b, t.writer = s.writer.finishing b
  log : { t.log with formatDrain := [] } = { s.settlingEntered.log with formatDrain := [] }
  table : t.table = s.table.filter Entry.goesOn
  responses : t.responses = s.responses ++ (s.table.filter fun e => !e.goesOn).map fun e => e.errResponse .power
  port : s.dport.Winds t.dport
  keeps : Keeps [.device, .powerFail, .drains, .log, .writer, .dport, .table, .responses] s t

theorem Keeps.settlingEntered (s : State) : Keeps [.device, .powerFail, .log] s s.settlingEntered :=
  ⟨fun p hp => by cases p <;> simp_all [Part.same, State.settlingEntered, State.region], rfl, rfl, rfl⟩

theorem State.settlingBegun_shape (s : State) :
    ∃ b d, s.settlingBegun = { s.powerAnswered with writer := s.powerAnswered.writer.finishing b, dport := d } ∧
      s.powerAnswered.dport.Winds d := by
  obtain ⟨b, d, writer, first⟩ := s.powerAnswered.quiesceWriter_shape
  obtain ⟨d', engine, second⟩ := s.powerAnswered.quiesceWriter.quiesceEngine_shape
  obtain ⟨d'', startup, third⟩ := s.powerAnswered.quiesceWriter.quiesceEngine.stopOwner_winds (o := .startup) (by decide)
  refine ⟨b, d'', ?_, ?_⟩
  · rw [State.settlingBegun, startup, engine, writer]
  · rw [engine] at third
    rw [writer] at second
    exact first.trans (second.trans third)

theorem State.settlingBegun_begun {s : State} (distinct : (s.table.map Entry.tag).Nodup) :
    SettlingBegun s s.settlingBegun := by
  have answers : Keeps [.table, .drains, .responses] s.settlingEntered s.powerAnswered := .answerErrors _ _ _
  have table : s.powerAnswered.table = s.table.filter Entry.goesOn := by
    rw [State.powerAnswered, State.powerEntries_eq, State.table_answerErrors_filter (s := s.settlingEntered) distinct]
    simp [State.settlingEntered]
  have responses : s.powerAnswered.responses =
      s.responses ++ (s.table.filter fun e => !e.goesOn).map fun e => e.errResponse .power := by
    rw [State.powerAnswered, State.responses_answerErrors, State.powerEntries_eq]
    rfl
  have writer : s.powerAnswered.writer = s.writer := answers.part .writer rfl
  have port : s.powerAnswered.dport = s.dport := answers.part .dport rfl
  have dropped (u : State) (w : LogWriter) (d : Downstream) : Keeps [.writer, .dport] u { u with writer := w, dport := d } :=
    ((Keeps.updWriter u fun _ => w).mono (by decide)).trans ((Keeps.updDport _ fun _ => d).mono (by decide))
  obtain ⟨b, d, begun, winds⟩ := s.settlingBegun_shape
  rw [writer] at begun
  rw [port] at winds
  rw [begun]
  exact ⟨answers.part .device rfl, answers.part .powerFail rfl, ⟨b, rfl⟩, answers.part .log rfl, table, responses, winds,
    ((Keeps.settlingEntered s).mono (by decide)).trans
      ((answers.mono (by decide)).trans ((dropped _ _ _).mono (by decide)))⟩

/-! ## The stall of the port in quiesce (R141, R170) -/

/-- The stall is noted (R141). -/
def State.stallNoted (s : State) : State := s.updPowerFail fun p => { p with stalled := true }

/-- With the stall noted, the READY entries are answered POWER (R141). -/
def State.readyAnswered (s : State) : State :=
  s.stallNoted.answerErrors (s.table.filter fun e => e.state == .ready) fun _ => .power

/-- What the stall of the port takes from a part in phase SETTLING (R141, R170). -/
structure SettlingStalled (s t : State) : Prop where
  device : t.device = s.device
  powerFail : t.powerFail = { s.powerFail with stalled := true }
  writer : ∃ b, t.writer = { s.writer with builder := b }
  log : { t.log with formatDrain := [] } = { s.log with anchor := none, formatDrain := [] }
  table : t.table = s.table.filter fun e => !(e.state == .ready)
  responses : t.responses = s.responses ++ (s.table.filter fun e => e.state == .ready).map fun e => e.errResponse .power
  queues : t.dport.anchorQueue = [] ∧ t.dport.logQueue = [] ∧ t.dport.rollQueue = []
  keeps : Keeps [.powerFail, .drains, .log, .writer, .dport, .table, .responses] s t

theorem State.quiesceStall_shape {s : State} (phase : s.powerFail.phase = .settling) : ∃ b, s.quiesceStall =
    { s.readyAnswered with
      dport := { s.readyAnswered.dport with anchorQueue := [], logQueue := [], rollQueue := [] }
      log := { s.readyAnswered.log with anchor := none }
      writer := { s.readyAnswered.writer with builder := b } } := by
  have answers : Keeps _ s.stallNoted s.readyAnswered := .answerErrors _ _ _
  have settling : s.readyAnswered.powerFail.phase = .settling :=
    (congrArg PowerFail.phase (answers.part .powerFail rfl)).trans phase
  unfold State.quiesceStall
  extract_lets noted answered emptied ended
  obtain ⟨b, settled⟩ := (emptied.updLog fun l => { l with anchor := none }).writerSettled_shape
  change ended = _ at settled
  rw [settled, if_neg]
  · exact ⟨b, rfl⟩
  · exact fun anchoring => absurd (settling.symm.trans anchoring) (by decide)

theorem State.quiesceStall_stalled {s : State} (distinct : (s.table.map Entry.tag).Nodup)
    (phase : s.powerFail.phase = .settling) : SettlingStalled s s.quiesceStall := by
  have noted : Keeps [.powerFail] s s.stallNoted := .updPowerFail s _
  have answers : Keeps [.table, .drains, .responses] s.stallNoted s.readyAnswered := .answerErrors _ _ _
  have table : s.readyAnswered.table = s.table.filter fun e => !(e.state == .ready) :=
    State.table_answerErrors_filter (s := s.stallNoted) distinct _ _
  have responses : s.readyAnswered.responses =
      s.responses ++ (s.table.filter fun e => e.state == .ready).map fun e => e.errResponse .power :=
    State.responses_answerErrors _ _ _
  have writer : s.readyAnswered.writer = s.writer := answers.part .writer rfl
  have log : { s.readyAnswered.log with formatDrain := [] } = { s.log with formatDrain := [] } := answers.part .log rfl
  have abandoned (u : State) (w : LogWriter) (d : Downstream) :
      Keeps [.log, .writer, .dport] u { u with dport := d, log := { u.log with anchor := none }, writer := w } :=
    ((Keeps.updDport u fun _ => d).mono (by decide)).trans
      (((Keeps.updLog (f := fun l => { l with anchor := none }) _ rfl).mono (by decide)).trans
        ((Keeps.updWriter _ fun _ => w).mono (by decide)))
  obtain ⟨b, stalled⟩ := State.quiesceStall_shape phase
  rw [writer] at stalled
  rw [stalled]
  exact ⟨answers.part .device rfl, answers.part .powerFail rfl, ⟨b, rfl⟩,
    congrArg (fun l : LogState => { l with anchor := none }) log, table, responses, ⟨rfl, rfl, rfl⟩,
    (noted.mono (by decide)).trans ((answers.mono (by decide)).trans ((abandoned _ _ _).mono (by decide)))⟩

/-! ## The warning (R138 to R141) -/

/-- What the entry to QUIESCING comes to from `s`, with the port stalled or not. -/
structure Quiesced (s t : State) : Prop where
  device : t.device = .quiescing
  powerFail : t.powerFail =
    ⟨.settling, some s.device, s.powerFail.stalled || s.portStalled, s.powerFail.safe⟩
  writer : ∃ b, t.writer = s.writer.finishing b
  log : ∃ a, { t.log with formatDrain := [] } = { s.settlingEntered.log with anchor := a, formatDrain := [] }
  flowing : s.portStalled = false → t.table = s.table.filter Entry.goesOn ∧
    t.responses = s.responses ++ (s.table.filter fun e => !e.goesOn).map (fun e => e.errResponse .power) ∧
    t.log.anchor = s.log.anchor ∧ s.dport.Winds t.dport
  stalled : s.portStalled = true → t.table = s.table.filter (fun e => e.state = .issued) ∧
    t.responses = s.responses ++ (s.table.filter fun e => !e.goesOn).map (fun e => e.errResponse .power) ++
      (s.table.filter fun e => e.state = .ready ∧ e.handling = some .inPlace).map (fun e => e.errResponse .power) ∧
    t.log.anchor = none ∧ t.dport.anchorQueue = [] ∧ t.dport.logQueue = [] ∧ t.dport.rollQueue = []
  keeps : Keeps [.device, .powerFail, .drains, .log, .writer, .dport, .table, .responses] s t

/-- The entries that go on and are not READY are the ISSUED ones, and those READY the in-place writes (R140, R141). -/
theorem Entry.goesOn_and_ready (e : Entry) : (!(e.state == .ready) && e.goesOn) = decide (e.state = .issued) ∧
    (e.state == .ready && e.goesOn) = decide (e.state = .ready ∧ e.handling = some .inPlace) := by
  by_cases ready : e.state = .ready <;> simp [Entry.goesOn, ready]

theorem State.quiesce_quiesced {s : State} (distinct : (s.table.map Entry.tag).Nodup) : Quiesced s s.quiesce := by
  have begun := State.settlingBegun_begun distinct
  have port := begun.port.portStalled
  rw [s.quiesce_eq, port]
  generalize s.settlingBegun = u at *
  cases stall : s.portStalled
  · rw [if_neg (by decide)]
    have anchor : u.log.anchor = s.log.anchor := (congrArg LogState.anchor begun.log :)
    exact ⟨begun.device, by rw [begun.powerFail, stall, Bool.or_false], begun.writer, ⟨_, begun.log⟩,
      fun _ => ⟨begun.table, begun.responses, anchor, begun.port⟩, fun h => absurd (stall.symm.trans h) (by decide),
      begun.keeps⟩
  · have distinct' : (u.table.map Entry.tag).Nodup := by
      rw [begun.table]
      exact distinct.sublist (List.filter_sublist.map _)
    have ended := State.quiesceStall_stalled distinct' (congrArg PowerFail.phase begun.powerFail)
    rw [if_pos rfl]
    generalize u.quiesceStall = t at *
    have table := ended.table
    have responses := ended.responses
    simp only [begun.table, begun.responses, List.filter_filter, Entry.goesOn_and_ready] at table responses
    obtain ⟨b, writer⟩ := begun.writer
    obtain ⟨b', writer'⟩ := ended.writer
    have log : { t.log with formatDrain := [] } = { s.settlingEntered.log with anchor := none, formatDrain := [] } :=
      ended.log.trans (congrArg (fun l : LogState => { l with anchor := none }) begun.log)
    refine ⟨ended.device.trans begun.device, by rw [ended.powerFail, begun.powerFail, stall, Bool.or_true],
      ⟨b', by rw [writer', writer]; rfl⟩, ⟨none, log⟩, fun h => absurd (stall.symm.trans h) (by decide),
      fun _ => ⟨table, responses, (congrArg LogState.anchor log :), ended.queues⟩,
      begun.keeps.trans (ended.keeps.mono (by decide))⟩

/-- Settles O39: the entry to QUIESCING read off part by part, the port stalled or not. -/
theorem powerFailWarningStartsQuiesce : Obligations.PowerFailWarningStartsQuiesce := by
  intro s range hi
  refine ⟨fun ended => congrArg Host.Outcome.next ((State.unlessReset_acts hi _).trans (if_pos ended)),
    fun notQuiescing notHalted => ?_⟩
  have acts : exec .powerFailWarning s = .next s.quiesce.followOn :=
    congrArg Host.Outcome.next ((State.unlessReset_acts hi _).trans (if_neg (not_or.mpr ⟨notQuiescing, notHalted⟩)))
  have k := State.quiesce_quiesced range.tags
  generalize s.quiesce = t at acts k
  obtain ⟨b, writer⟩ := k.writer
  obtain ⟨a, log⟩ := k.log
  have noHeld (r : RegionId) : (s.writer.finishing b).held.get r = none := by
    simp [LogWriter.finishing, Vector.get_eq_getElem]
  refine ⟨t, acts, k.device, by rw [k.powerFail], by rw [k.powerFail], by rw [k.powerFail],
    by simp [State.requestReady, k.device], by rw [writer]; rfl, by rw [writer]; rfl, by rw [writer]; rfl,
    fun r => by rw [writer, noHeld], (congrArg LogState.deferred log :), (congrArg LogState.anchorWanted log :),
    fun stall => ?_, fun stall => ?_, k.keeps⟩
  · obtain ⟨table, responses, anchor, port⟩ := k.flowing stall
    exact ⟨by rw [k.powerFail, stall, Bool.or_false], table, responses, anchor, port.anchors⟩
  · exact ⟨by rw [k.powerFail, stall, Bool.or_true], k.stalled stall⟩

end Sys2Proof.Machine
end

section
/-! SUPPORT. The end of quiesce (R144 to R147): SETTLING ends with the closing anchor write or halts the part at once, and the
closing anchor write halts it when verified or exhausted. -/

namespace Sys2Proof.Machine

/-! ## The part HALTED (R147) -/

theorem Keeps.halt (s : State) : Keeps [.device, .powerFail] s s.halt :=
  ((Keeps.setDevice s .halted).mono (by decide)).trans ((Keeps.updPowerFail _ _).mono (by decide))

theorem State.safe_halt {s : State} (h : s.inReset = false) : s.halt.safe = true := by
  have running : s.halt.inReset = false := h
  rw [State.safe, running]
  rfl

/-! ## The end of SETTLING (R144, R145) -/

/-- With no entry left, in QUIESCING the end of SETTLING is all that may follow on an event. -/
theorem State.followOn_of_drained {s : State} (device : s.device = .quiescing) (table : s.table = []) :
    s.followOn = s.passSettling := by
  have idle : s.working = false := by simp [State.working, device]
  have quiet : NoneStarts s s.table := table ▸ NoneStarts.nil s
  have recovery : s.passRecovery = s := if_neg (by simp [State.recovered, device])
  unfold State.followOn
  rw [State.startEntries_of_noneStarts quiet, State.nextWalk_eq_self (.inl idle),
    State.passDrain_eq_self fun _ _ => .inl idle, recovery]

theorem State.closingAnchorDue_iff (s : State) : s.closingAnchorDue = true ↔
    (s.powerFail.entry = some .run ∨ s.powerFail.entry = some .restoring) ∧
      s.log.volatileTail ≠ s.log.durableTail ∧ s.powerFail.stalled = false := by
  simp [State.closingAnchorDue, and_assoc]

/-- Phase ANCHORING, where the closing anchor write starts or the part halts. -/
def State.anchoringPhase (s : State) : State := s.updPowerFail fun p => { p with phase := .anchoring }

theorem State.endSettling_eq (s : State) :
    s.endSettling = if s.closingAnchorDue then s.anchoringPhase.startAnchor .closing else s.anchoringPhase.halt := rfl

/-- Where SETTLING has ended, its end is a step of its own and all that follows on an event (R144). -/
theorem State.settlingEnd_ends {s : State} (hi : s.inReset = false) (device : s.device = .quiescing)
    (phase : s.powerFail.phase = .settling) (settled : Settled s) :
    exec .settlingEnd s = .next s.endSettling ∧ s.followOn = s.endSettling := by
  have ends : s.passSettling = s.endSettling := if_pos ⟨device, phase, s.settled_iff.mpr settled⟩
  have ⟨table, _⟩ := settled
  exact ⟨congrArg Host.Outcome.next ((State.unlessReset_acts hi _).trans ends),
    (State.followOn_of_drained device table).trans ends⟩

/-- Before SETTLING has ended, its end is an event that is not due. -/
theorem State.settlingEnd_waits {s : State}
    (h : ¬(s.device = .quiescing ∧ s.powerFail.phase = .settling ∧ Settled s)) : exec .settlingEnd s = .next s := by
  refine congrArg Host.Outcome.next (State.unlessReset_keeps (P := (· = s)) rfl fun _ => if_neg ?_)
  rwa [s.settled_iff]

/-- The closing anchor write starts in phase ANCHORING (R145). -/
theorem State.anchoringPhase_starts {s : State} {g : Geometry} (hg : s.log.geometry = some g) :
    AnchorStarted s (s.anchoringPhase.startAnchor .closing) .closing g ∧
      (s.anchoringPhase.startAnchor .closing).device = s.device ∧
      (s.anchoringPhase.startAnchor .closing).powerFail = { s.powerFail with phase := .anchoring } ∧
      Keeps [.powerFail, .log, .dport] s (s.anchoringPhase.startAnchor .closing) := by
  have ready : AnchorReady s s.anchoringPhase := ⟨rfl, rfl, rfl, rfl, rfl, rfl, rfl, rfl⟩
  have starts := Keeps.startAnchor s.anchoringPhase .closing
  exact ⟨ready.started hg _, starts.part .device rfl, starts.part .powerFail rfl,
    ((Keeps.updPowerFail s _).mono (by decide)).trans (starts.mono (by decide))⟩

/-! ## The closing anchor write (R146) -/

/-- In QUIESCING the verified closing anchor halts the part. -/
theorem State.anchorDone_closing {s : State} {gt : DownTag} {a : AnchorWrite} (device : s.device = .quiescing)
    (purpose : a.purpose = .closing) (undeferred : s.writer.deferred = none) (unwanted : s.log.anchorWanted = false) :
    s.anchorDone gt a = (s.anchorIn gt a).halt := by
  have quiesces : (s.anchorIn gt a).device = .quiescing := (s.anchorIn_anchorIn gt a).device.trans device
  rw [State.anchorDone_undeferred undeferred, State.afterAnchor_none (by simp [quiesces])
    ((s.anchorIn_free gt a).wanted.trans unwanted), purpose]
  exact if_pos quiesces

/-- In QUIESCING the exhausted closing anchor halts the part, with ANCHOR_WRITE pushed. -/
theorem State.anchorExhausted_closing {s : State} {a : AnchorWrite} (device : s.device = .quiescing)
    (purpose : a.purpose = .closing) (attempts : Nat) : s.anchorExhausted a attempts = (s.anchorLost a attempts).halt := by
  rw [State.anchorExhausted_eq, if_pos device, if_pos purpose]

/-- Settles O49: the end of SETTLING by whether the closing anchor is due, and the closing anchor write by its outcome. -/
theorem settlingEndAnchorsOrHalts : Obligations.SettlingEndAnchorsOrHalts := by
  intro s hi due ends halts
  refine ⟨State.settlingEnd_waits, fun device phase settled => ?_, fun gt d a device purpose => ⟨?_, ?_⟩⟩
  · have ended := State.settlingEnd_ends hi device phase settled
    rw [s.endSettling_eq] at ended
    refine ⟨fun g hg h => ?_, fun h => ?_⟩
    · rw [if_pos (s.closingAnchorDue_iff.mpr h)] at ended
      obtain ⟨started, stays, powerFail, keeps⟩ := State.anchoringPhase_starts hg
      exact ⟨_, ended, stays.trans device, powerFail, started, keeps⟩
    · rw [if_neg (mt s.closingAnchorDue_iff.mp h)] at ended
      exact ⟨_, ended, ⟨rfl, rfl, State.safe_halt hi⟩,
        ((Keeps.updPowerFail s _).mono (by decide)).trans ((Keeps.halt _).mono (by decide))⟩
  · intro verified undeferred unwanted
    have acts := State.respond_verified hi verified
    change _ = Host.Outcome.next (s.anchorDone gt a).followOn at acts
    obtain ⟨-, slot, anchorSeq, durableTail⟩ := s.anchorDone_adopts gt a
    have before := Keeps.anchorIn s gt a
    have powerFail := before.part .powerFail rfl
    obtain ⟨-, -, running, -⟩ := before
    rw [State.anchorDone_closing device purpose undeferred unwanted] at acts slot anchorSeq durableTail
    refine ⟨_, acts, ⟨rfl, ?_, State.safe_halt (running.trans hi)⟩, slot, anchorSeq, durableTail,
      ((Keeps.anchorIn s gt a).mono (by decide)).trans ((Keeps.halt _).mono (by decide))⟩
    exact congrArg (fun p : PowerFail => { p with phase := .halted, safe := true }) powerFail
  · intro failed limit
    have acts := State.anchor_fails (d := d) hi failed
    rw [if_neg (Nat.not_lt.mpr limit), State.anchorExhausted_closing (s := s.setTag gt .free) device purpose] at acts
    refine ⟨_, acts, ⟨rfl, rfl, State.safe_halt hi⟩, rfl, rfl, ?_⟩
    exact ((Keeps.updDport s _).mono (by decide)).trans
      (((Keeps.anchorLost _ a _).mono (by decide)).trans ((Keeps.halt _).mono (by decide)))

end Sys2Proof.Machine
end

section
/-! SUPPORT. The upstream port: what becomes of a host request (R148, R151, R153), and that every request taken is answered
exactly once (R149, R150). -/

namespace Sys2Proof.Machine

/-! ## A host request (R148, R151, R153) -/

theorem State.requestReady_iff (s : State) :
    s.requestReady = true ↔ s.inReset = false ∧ Serving s ∧ s.table.length < 16 := by
  simp only [State.requestReady, Serving, Bool.and_eq_true, Bool.or_eq_true, Bool.not_eq_true', beq_iff_eq,
    decide_eq_true_eq, and_assoc, or_assoc]
  rfl

theorem HostRequest.wellFormed_iff (q : HostRequest) (s : State) :
    HostRequest.wellFormed q s.memorySize = true ↔ WellFormedRequest s q := by
  simp [HostRequest.wellFormed, WellFormedRequest, and_assoc]

theorem State.entry_isSome_iff (s : State) (g : HostTag) : (s.entry g).isSome = true ↔ ∃ e ∈ s.table, e.tag = g := by
  simp [State.entry]

theorem execUpstreamRequest_waits {q : HostRequest} {s : State} (ready : s.requestReady ≠ true) :
    exec (.upstreamRequest q) s = .next s :=
  congrArg Host.Outcome.next (if_neg ready)

/-- With request ready asserted, the part takes the request. -/
theorem execUpstreamRequest_takes {q : HostRequest} {s : State} (ready : s.requestReady = true) :
    exec (.upstreamRequest q) s = .next (s.takeRequest q) :=
  congrArg Host.Outcome.next (if_pos ready)

theorem State.takeRequest_dropped {q : HostRequest} {s : State} (duplicate : ∃ e ∈ s.table, e.tag = q.tag) :
    s.takeRequest q = s.pushFault (faultEntry .upstreamProtocol none (some q.addr.toNat) none 0) :=
  if_pos ((s.entry_isSome_iff q.tag).mpr duplicate)

theorem State.takeRequest_malformed {q : HostRequest} {s : State} (fresh : ∀ e ∈ s.table, e.tag ≠ q.tag)
    (malformed : ¬WellFormedRequest s q) : s.takeRequest q =
      { s with responses := s.responses ++ [(HostRequest.newEntry q).errResponse .protocol] } := by
  rw [← errorData_eq]
  unfold State.takeRequest
  rw [if_neg (by simpa [s.entry_isSome_iff] using fresh), if_neg (mt (HostRequest.wellFormed_iff q s).mp malformed)]
  rfl

theorem State.takeRequest_entered {q : HostRequest} {s : State} (fresh : ∀ e ∈ s.table, e.tag ≠ q.tag)
    (wellFormed : WellFormedRequest s q) :
    s.takeRequest q = State.followOn { s with table := s.table ++ [HostRequest.newEntry q] } := by
  unfold State.takeRequest
  rw [if_neg (by simpa [s.entry_isSome_iff] using fresh), if_pos ((HostRequest.wellFormed_iff q s).mpr wellFormed)]

/-- A mask of the `n` lowest bits leaves a field that lies among them. -/
theorem extractLsb'_and_lowBits {width lo len n : Nat} (x : BitVec width) (h : lo + len ≤ n) :
    (x &&& BitVec.ofNat width (2 ^ n - 1)).extractLsb' lo len = x.extractLsb' lo len := by
  refine BitVec.eq_of_getLsbD_eq fun i hi => ?_
  have low : lo + i < n := by omega
  simp only [BitVec.getLsbD_extractLsb', BitVec.getLsbD_and, BitVec.getLsbD_ofNat, Nat.testBit_two_pow_sub_one, low, hi,
    decide_true, Bool.true_and, Bool.and_true]
  by_cases inside : lo + i < width
  · simp [inside]
  · simp [BitVec.getLsbD_of_ge x (lo + i) (by omega)]

/-- The entry of a WRITE holds the data words and strobes of the words the request counts (R148). -/
theorem HostRequest.newEntry_write {q : HostRequest} (write : q.op = .write) {i : Nat} (hi : i < q.count) :
    (HostRequest.writeData q).extractLsb' (32 * i) 32 = q.data.extractLsb' (32 * i) 32 ∧
      (HostRequest.writeStrobes q).extractLsb' (4 * i) 4 = q.strobes.extractLsb' (4 * i) 4 := by
  unfold HostRequest.writeData HostRequest.writeStrobes
  rw [write]
  exact ⟨extractLsb'_and_lowBits _ (by omega), extractLsb'_and_lowBits _ (by omega)⟩

/-- Settles O31, by what becomes of the request with request ready asserted and without it. -/
theorem upstreamRequestIsTakenInOrder : Obligations.UpstreamRequestIsTakenInOrder := by
  intro q s
  refine ⟨fun h => execUpstreamRequest_waits (mt s.requestReady_iff.mp h), fun running serving free => ?_⟩
  rw [execUpstreamRequest_takes (s.requestReady_iff.mpr ⟨running, serving, free⟩)]
  refine ⟨fun duplicate => ?_, fun fresh malformed => ?_, fun fresh wellFormed => ?_⟩
  · rw [State.takeRequest_dropped duplicate]
    rfl
  · rw [State.takeRequest_malformed fresh malformed]
    rfl
  · refine ⟨HostRequest.writeData q, HostRequest.writeStrobes q, fun write i hi => HostRequest.newEntry_write write hi, ?_⟩
    rw [State.takeRequest_entered fresh wellFormed]
    rfl

/-! ## Every request is answered once (R149, R150) -/

/-- From `s` to `t` responses are only added, and what is accounted for under each tag grows by `taken`. The tags of the
table stay distinct, so that an answered entry is one entry. -/
structure Accounts (taken : HostTag → Nat) (s t : State) : Prop where
  distinct : t.tags.Nodup
  responses : ∃ more, t.responses = s.responses ++ more
  account : ∀ g, accounted t g = accounted s g + taken g

/-- No request is taken. -/
def noneTaken : HostTag → Nat := fun _ => 0

theorem Accounts.refl {s : State} (h : InRange s) : Accounts noneTaken s s := ⟨h.tags, ⟨[], by simp⟩, fun _ => rfl⟩

/-- What the operations below the level of a command do after a request is taken accounts for it still. -/
theorem Accounts.kept {taken : HostTag → Nat} {s t u : State} (a : Accounts taken s t) (k : Kept t u) :
    Accounts taken s u where
  distinct := k.sub.nodup a.distinct
  responses := by
    obtain ⟨more, hm⟩ := a.responses
    obtain ⟨later, hl⟩ := k.responses
    exact ⟨more ++ later, by rw [hl, hm, List.append_assoc]⟩
  account g := (k.account a.distinct g).trans (a.account g)

/-- What leaves the tags of the table and the responses leaves the account. -/
theorem Accounts.congr {taken : HostTag → Nat} {s t u : State} (a : Accounts taken s t) (tags : u.tags = t.tags)
    (responses : u.responses = t.responses) : Accounts taken s u where
  distinct := tags ▸ a.distinct
  responses := responses ▸ a.responses
  account g := by
    rw [← a.account g]
    unfold accounted
    rw [responses]
    exact congrArg _ (congrArg (List.count g) tags)

theorem Accounts.settings {s t : State} (h : InRange s) (k : SettingsOnly s t) : Accounts noneTaken s t := by
  obtain ⟨_, _, _, _, _, _, rfl⟩ := k
  exact (Accounts.refl h).congr rfl rfl

theorem Accounts.issueNext {s : State} (h : InRange s) : Accounts noneTaken s s.issueNext := by
  refine State.issueNext_keeps (.refl h) fun g cls q _ _ table issued => (Accounts.refl h).congr ?_ rfl
  obtain rfl | ⟨e, -, -, rfl⟩ := issued
  · rfl
  · exact tags_map_issued s.table e.tag

theorem Accounts.tick {s : State} (h : InRange s) : Accounts noneTaken s s.tick := by
  rw [s.tick_eq]
  exact (Accounts.refl h).congr rfl rfl

/-- Outside reset, no command but the host's request changes the account. -/
theorem Accounts.exec {c : Instr} {s t : State} (h : InRange s) (request : ∀ q, c ≠ .upstreamRequest q)
    (assert : c ≠ .resetAssert) (release : ∀ m b, c ≠ .resetRelease m b) (he : exec c s = .next t) :
    Accounts noneTaken s t := by
  have stands := Accounts.refl h
  have hold (t : State) (f : Frame) (a : Accounts noneTaken s t) : Accounts noneTaken s (t.holdFrame f) := a.congr rfl rfl
  cases hc : setsState c with
  | false =>
    obtain ⟨u, hu, k⟩ := exec_kept hc s
    obtain rfl : u = t := Host.Outcome.next.inj (hu.symm.trans he)
    obtain k | ⟨v, f, k, rfl⟩ := k
    · exact stands.kept k
    · exact hold _ f (stands.kept k)
  | true =>
    cases c
    case setParam | setPriority | setThreshold | popFault | claim | frameDiscard | frameEnd | firstIssueDelayExpiry =>
      exact .settings h (exec_settingsOnly rfl he)
    case stage => exact execStage_keeps hold stands (fun _ _ _ _ => stands.congr rfl rfl) he
    case format =>
      exact execFormat_keeps hold stands (fun k a => a.kept k) (fun _ _ _ _ => stands.congr rfl rfl) he
    case downstreamIssue =>
      cases he
      exact State.unlessReset_keeps stands fun _ => .issueNext h
    case tick =>
      cases he
      exact State.unlessReset_keeps stands fun _ => (Accounts.tick h).kept ((Kept.takeExpiries _).trans (.followOn _))
    case upstreamRequest q => exact absurd rfl (request q)
    case resetAssert => exact absurd rfl assert
    case resetRelease m b => exact absurd rfl (release m b)
    all_goals exact absurd (show false = true from hc) Bool.false_ne_true

/-- What the account grows by under a tag when the host presents a request: one for a request of that tag that is taken and
not dropped (R151). -/
def State.requestTaken (s : State) (q : HostRequest) (g : HostTag) : Nat :=
  if q.tag = g ∧ s.requestReady = true ∧ s.entry g = none then 1 else 0

theorem State.requestTaken_waits {s : State} (q : HostRequest) (ready : s.requestReady ≠ true) :
    s.requestTaken q = noneTaken := by
  funext g
  exact if_neg fun ⟨_, h, _⟩ => ready h

theorem State.requestTaken_dropped {s : State} {q : HostRequest} (duplicate : ∃ e ∈ s.table, e.tag = q.tag) :
    s.requestTaken q = noneTaken := by
  funext g
  refine if_neg fun ⟨tag, _, free⟩ => ?_
  have held := (s.entry_isSome_iff q.tag).mpr duplicate
  rw [tag, free] at held
  exact Bool.false_ne_true held

theorem State.requestTaken_fresh {s : State} {q : HostRequest} (ready : s.requestReady = true)
    (fresh : ∀ e ∈ s.table, e.tag ≠ q.tag) (g : HostTag) : s.requestTaken q g = [q.tag].count g := by
  have free : s.entry q.tag = none := by simpa [State.entry] using fresh
  unfold State.requestTaken
  rw [List.count_singleton]
  by_cases tag : q.tag = g
  · subst tag
    simp [ready, free]
  · simp [tag]

/-- A request answered at once is accounted for by its response. -/
theorem Accounts.answered {s : State} {q : HostRequest} (h : InRange s) (ready : s.requestReady = true)
    (fresh : ∀ e ∈ s.table, e.tag ≠ q.tag) (reason : Reason) :
    Accounts (s.requestTaken q) s
      { s with responses := s.responses ++ [(HostRequest.newEntry q).errResponse reason] } where
  distinct := h.tags
  responses := ⟨_, rfl⟩
  account g := by
    rw [State.requestTaken_fresh ready fresh]
    simp only [accounted, List.map_append, List.map_cons, List.map_nil, List.count_append, Entry.errResponse,
      HostRequest.newEntry]
    omega

/-- A well-formed request is accounted for by its entry. -/
theorem Accounts.entered {s : State} {q : HostRequest} (h : InRange s) (ready : s.requestReady = true)
    (fresh : ∀ e ∈ s.table, e.tag ≠ q.tag) :
    Accounts (s.requestTaken q) s { s with table := s.table ++ [HostRequest.newEntry q] } where
  distinct := (h.enter ready (by simpa [State.entry] using fresh)).tags
  responses := ⟨[], by simp⟩
  account g := by
    rw [State.requestTaken_fresh ready fresh]
    simp only [accounted, List.map_append, List.map_cons, List.map_nil, List.count_append, HostRequest.newEntry]
    omega

/-- The host's request is accounted for exactly when it is taken and not dropped. -/
theorem Accounts.upstreamRequest {s t : State} {q : HostRequest} (h : InRange s)
    (he : Machine.exec (.upstreamRequest q) s = .next t) : Accounts (s.requestTaken q) s t := by
  by_cases ready : s.requestReady = true
  · rw [execUpstreamRequest_takes ready] at he
    cases he
    by_cases duplicate : ∃ e ∈ s.table, e.tag = q.tag
    · rw [State.takeRequest_dropped duplicate, State.requestTaken_dropped duplicate]
      exact (Accounts.refl h).kept (.pushFault _ _)
    · have fresh : ∀ e ∈ s.table, e.tag ≠ q.tag := by simpa using duplicate
      by_cases wellFormed : WellFormedRequest s q
      · rw [State.takeRequest_entered fresh wellFormed]
        exact (Accounts.entered h ready fresh).kept (.followOn _)
      · rw [State.takeRequest_malformed fresh wellFormed]
        exact .answered h ready fresh _
  · rw [execUpstreamRequest_waits ready] at he
    cases he
    rw [State.requestTaken_waits q ready]
    exact .refl h

/-- Settles O59: the host's request by its own account, and every other command by what it leaves. -/
theorem everyRequestIsAnsweredOnce : Obligations.EveryRequestIsAnsweredOnce := by
  intro c s t h assert release he
  by_cases request : ∃ q, c = .upstreamRequest q
  · obtain ⟨q, rfl⟩ := request
    have taken := Accounts.upstreamRequest h he
    exact ⟨taken.responses, taken.account⟩
  · have untaken := Accounts.exec h (fun q k => request ⟨q, k⟩) assert release he
    refine ⟨untaken.responses, fun g => ?_⟩
    rw [untaken.account g]
    cases c
    case upstreamRequest q => exact absurd ⟨q, rfl⟩ request
    all_goals rfl

end Sys2Proof.Machine
end

section
/-! SUPPORT. The downstream port: what DPORT_CLEAR frees (R171), what the arbiter issues (R164 to R166), and what a timeout
makes of its tag and of a host request (R168, R170). -/

namespace Sys2Proof.Machine

/-! ## The stall of the port (R170) -/

theorem State.portStalled_iff (s : State) : s.portStalled = true ↔ ∀ g, (s.tag g).isQuarantined = true := by
  simp only [State.portStalled, List.all_eq_true, mem_allTags, true_implies]

/-! ## DPORT_CLEAR (R171) -/

theorem Tag.cleared_eq (t : Tag) : t.cleared = if t.isQuarantined then .free else t := by cases t <;> rfl

theorem Tag.isQuarantined_cleared (t : Tag) : t.cleared.isQuarantined = false := by cases t <;> rfl

theorem Keeps.mapTags (s : State) (f : Tag → Tag) : Keeps [.dport] s (s.mapTags f) := by
  rw [State.mapTags_eq]
  exact .updDport s fun d => { d with tags := Vector.ofFn fun g => f (s.tag g) }

/-- The port is not stalled once its QUARANTINED tags are cleared: the first tag is none of them. -/
theorem State.portStalled_cleared (s : State) : (s.mapTags Tag.cleared).portStalled = false := by
  refine Bool.eq_false_iff.mpr fun stalled => ?_
  have first : ((s.mapTags Tag.cleared).tag 0).isQuarantined = true := (State.portStalled_iff _).mp stalled 0
  rw [State.tag_mapTags, Tag.isQuarantined_cleared] at first
  exact absurd first (by decide)

/-- Settles O30: the state taken is that with every tag cleared, before what follows on the event. -/
theorem dportClearEmptiesTheQuarantine : Obligations.DportClearEmptiesTheQuarantine := by
  intro s hl
  refine ⟨fun h => takes_gated_busy hl h rfl, fun hs => ⟨s.mapTags Tag.cleared, takes_gated hl hs rfl rfl,
    fun g => ?_, s.portStalled_cleared, ?_, ?_, ?_, ?_, .mapTags s _⟩⟩
  · rw [State.tag_mapTags, Tag.cleared_eq]
  all_goals rw [State.mapTags_eq]

/-! ## The arbiter's choice (R164) -/

theorem State.lowestFree_of {s : State} {g : DownTag} (h : LowestFree s g) : s.lowestFree = some g := by
  obtain ⟨free, lower⟩ := h
  refine List.find?_eq_some_iff_getElem.mpr ⟨by simp [free], g.val, by simp [allTags], by simp [allTags], fun j hj => ?_⟩
  simpa [allTags] using lower ⟨j, hj.trans g.isLt⟩ hj

theorem State.hostHead_isSome_iff (s : State) : s.hostHead.isSome = true ↔ HostWaits s := by
  simp [State.hostHead, HostWaits]

theorem State.hostHead_of_stands {s : State} {pre post : List Entry} {e : Entry} (hs : Stands s pre e post)
    (older : ∀ x ∈ pre, x.state ≠ .ready) (ready : e.state = .ready) : s.hostHead = some e := by
  refine List.find?_eq_some_iff_append.mpr ⟨by simp [ready], pre, post, hs, fun x hx => ?_⟩
  simpa using older x hx

/-- A queue's request is chosen from the first queue that holds one, never for the host class. -/
theorem ChosenFromQueue.queued {s : State} {cls : IssueClass} {q : DownRequest} (h : ChosenFromQueue s cls q) :
    s.dport.queued = some (cls, q) ∧ cls ≠ .host := by
  obtain ⟨-, turn⟩ := h
  cases cls
  case anchor =>
    obtain ⟨l, anchors⟩ := List.head?_eq_some_iff.mp turn
    exact ⟨by simp only [Downstream.queued, anchors], nofun⟩
  case logWriter =>
    obtain ⟨anchors, head⟩ := turn
    obtain ⟨l, logs⟩ := List.head?_eq_some_iff.mp head
    exact ⟨by simp only [Downstream.queued, anchors, logs], nofun⟩
  case rollback =>
    obtain ⟨anchors, logs, head⟩ := turn
    obtain ⟨l, rolls⟩ := List.head?_eq_some_iff.mp head
    exact ⟨by simp only [Downstream.queued, anchors, logs, rolls], nofun⟩
  case host => exact turn.elim

theorem Downstream.queued_empty {d : Downstream} (h : d.anchorQueue = [] ∧ d.logQueue = [] ∧ d.rollQueue = []) :
    d.queued = none := by
  obtain ⟨anchors, logs, rolls⟩ := h
  simp only [Downstream.queued, anchors, logs, rolls]

theorem State.choose_queue {s : State} {cls : IssueClass} {q : DownRequest} (h : ChosenFromQueue s cls q) :
    s.choose = some (cls, q) := by
  have unspent : ¬(s.dport.share = 4 ∧ s.hostHead.isSome = true) := by
    rw [State.hostHead_isSome_iff]
    exact h.1
  simp only [State.choose, Option.isSome_map, Config.hostShare, unspent, if_false, h.queued.1]

/-- With the share spent or every queue empty, the oldest READY entry is chosen. -/
theorem State.choose_oldest {s : State} {e : Entry} (head : s.hostHead = some e)
    (turn : s.dport.share = 4 ∨ s.dport.anchorQueue = [] ∧ s.dport.logQueue = [] ∧ s.dport.rollQueue = []) :
    s.choose = some (.host, e.request) := by
  unfold State.choose
  obtain spent | empty := turn
  · simp [head, spent, Config.hostShare]
  · simp [head, Downstream.queued_empty empty]

/-- With no READY entry and every queue empty, there is no request to choose. -/
theorem State.choose_none {s : State} (idle : ¬HostWaits s)
    (empty : s.dport.anchorQueue = [] ∧ s.dport.logQueue = [] ∧ s.dport.rollQueue = []) : s.choose = none := by
  have head : s.hostHead = none := by
    rwa [← State.hostHead_isSome_iff, Bool.not_eq_true, Option.isSome_eq_false_iff, Option.isNone_iff_eq_none] at idle
  simp [State.choose, head, Downstream.queued_empty empty]

/-! ## The issue (R165, R166) -/

theorem exec_downstreamIssue {s : State} (hi : s.inReset = false) : exec .downstreamIssue s = .next s.issueNext :=
  congrArg Host.Outcome.next (State.unlessReset_acts hi _)

theorem exec_downstreamIssue_takes {s : State} {g : DownTag} {cls : IssueClass} {q : DownRequest} (may : MayIssue s)
    (lowest : LowestFree s g) (chosen : s.choose = some (cls, q)) :
    exec .downstreamIssue s = .next (s.issueRequest g cls q) := by
  obtain ⟨running, allowed, device⟩ := may
  rw [exec_downstreamIssue running]
  simp [State.issueNext, allowed, device, State.lowestFree_of lowest, chosen]

/-- Without leave to issue nothing is issued (R118, R147, R164). -/
theorem exec_downstreamIssue_mayNot {s : State} (h : ¬MayIssue s) : exec .downstreamIssue s = .next s := by
  refine congrArg Host.Outcome.next (State.unlessReset_keeps (P := fun t => t = s) rfl fun running => ?_)
  refine if_neg fun may => h ?_
  simpa [MayIssue, running] using may

/-- Without a tag or a request nothing is issued (R164). -/
theorem exec_downstreamIssue_lacks {s : State} (h : (∀ g, s.tag g ≠ .free) ∨ s.choose = none) :
    exec .downstreamIssue s = .next s := by
  refine congrArg Host.Outcome.next (State.unlessReset_keeps (P := fun t => t = s) rfl fun _ => ?_)
  obtain stands | ⟨g, cls, q, lowest, chosen, -⟩ := s.issueNext_cases
  · exact stands
  · obtain taken | none := h
    · exact absurd (State.lowestFree_free lowest) (taken g)
    · cases none.symm.trans chosen

/-- What an issue of either kind does: its tag, the record of issues and the share count. -/
structure IssuedUnder (s t : State) (g : DownTag) (cls : IssueClass) (q : DownRequest) : Prop where
  tag : t.tag g = .outstanding q.owner cls q.op q.addr s.params.dto s.timebase.elapsed true
  others : ∀ g', g' ≠ g → t.tag g' = s.tag g'
  issued : t.issued = s.issued ++ [(g, q)]
  share : t.dport.share = s.shareAfter cls

theorem State.issueRequest_issued (s : State) (g : DownTag) (cls : IssueClass) (q : DownRequest) :
    IssuedUnder s (s.issueRequest g cls q) g cls q := by
  obtain ⟨d, table, issue, share, -⟩ := s.issueRequest_eq g cls q
  refine ⟨?_, fun g' other => ?_, by rw [issue], by rw [issue, ← share]⟩
  · rw [State.tag_issueRequest, if_pos rfl]
  · rw [State.tag_issueRequest, if_neg (Ne.symm other)]

theorem State.shareAfter_waits {s : State} {cls : IssueClass} (queue : cls ≠ .host) (waits : HostWaits s) :
    s.shareAfter cls = min (s.dport.share + 1) 4 :=
  (if_neg queue).trans (if_pos ((State.hostHead_isSome_iff s).mpr waits))

theorem State.shareAfter_idle {s : State} {cls : IssueClass} (queue : cls ≠ .host) (idle : ¬HostWaits s) :
    s.shareAfter cls = 0 :=
  (if_neg queue).trans (if_neg (mt (State.hostHead_isSome_iff s).mp idle))

/-- An issue changes what leaving its class does, the port and the record of issues. -/
theorem Keeps.issueRequest {c : List Part} {s : State} {cls : IssueClass} {q : DownRequest}
    (leaves : Keeps c s (s.leaveClass cls q)) (hc : [.dport, .issued] ⊆ c) (g : DownTag) :
    Keeps c s (s.issueRequest g cls q) := by
  have record (u : State) (l : List (DownTag × DownRequest)) : Keeps [.dport, .issued] u { u with issued := l } :=
    ⟨fun p hp => by cases p <;> simp_all [Part.same, State.region], rfl, rfl, rfl⟩
  have sent (u : State) (x : Tag) (f : Downstream → Downstream) : Keeps [.dport] u ((u.setTag g x).updDport f) :=
    (Keeps.setTag u g x).trans (.updDport _ f)
  exact leaves.trans ((((sent _ _ _).mono (by decide)).trans (record _ _)).mono hc)

/-- A request of a class queue leaves the head of that queue, and nothing else changes. -/
theorem State.leaveClass_queue {cls : IssueClass} (queue : cls ≠ .host) (s : State) (q : DownRequest) :
    s.leaveClass cls q = s.updDport fun d =>
      { d with
        anchorQueue := if cls = .anchor then d.anchorQueue.tail else d.anchorQueue
        logQueue := if cls = .logWriter then d.logQueue.tail else d.logQueue
        rollQueue := if cls = .rollback then d.rollQueue.tail else d.rollQueue } := by
  cases cls
  case host => exact absurd rfl queue
  all_goals rfl

/-- The class queues after an issue are those the chosen request has left. -/
theorem State.queues_issueRequest (s : State) (g : DownTag) (cls : IssueClass) (q : DownRequest) :
    (s.issueRequest g cls q).dport.anchorQueue = (s.leaveClass cls q).dport.anchorQueue ∧
    (s.issueRequest g cls q).dport.logQueue = (s.leaveClass cls q).dport.logQueue ∧
    (s.issueRequest g cls q).dport.rollQueue = (s.leaveClass cls q).dport.rollQueue := ⟨rfl, rfl, rfl⟩

/-- Settles O34, by the conditions of an issue and by the class of the request chosen. -/
theorem arbiterIssuesItsChoice : Obligations.ArbiterIssuesItsChoice := by
  intro g s hr
  refine ⟨?_, fun may lowest cls q chosen => ?_, fun may lowest pre e post hs older ready turn => ?_⟩
  · rintro (mayNot | taken | ⟨idle, empty⟩)
    · exact exec_downstreamIssue_mayNot mayNot
    · exact exec_downstreamIssue_lacks (.inl taken)
    · exact exec_downstreamIssue_lacks (.inr (State.choose_none idle empty))
  · have queue : cls ≠ .host := chosen.queued.2
    have leaves := State.leaveClass_queue queue s q
    have left : Keeps [.dport] s (s.leaveClass cls q) := leaves ▸ .updDport s _
    obtain ⟨anchors, logs, rolls⟩ := s.queues_issueRequest g cls q
    rw [leaves] at anchors logs rolls
    obtain ⟨tag, others, issued, share⟩ := s.issueRequest_issued g cls q
    exact ⟨_, exec_downstreamIssue_takes may lowest (State.choose_queue chosen), tag, others, issued, anchors, logs, rolls,
      fun waits => share.trans (State.shareAfter_waits queue waits),
      fun idle => share.trans (State.shareAfter_idle queue idle),
      Keeps.issueRequest (left.mono (by decide)) (by decide) g⟩
  · have choice := State.choose_oldest (State.hostHead_of_stands hs older ready) turn
    obtain ⟨tag, others, issued, share⟩ := s.issueRequest_issued g .host e.request
    have left : Keeps [.table] s (s.leaveClass .host e.request) := .updEntry s e.tag _
    exact ⟨_, exec_downstreamIssue_takes may lowest choice, tag, others, issued,
      State.updEntry_table_of_stands hr hs _, rfl, rfl, rfl, share,
      Keeps.issueRequest (left.mono (by decide)) (by decide) g⟩

/-! ## A timeout (R168, R170) -/

theorem exec_responseTimeout {s : State} (hi : s.inReset = false) (g : DownTag) :
    exec (.responseTimeout g) s = .next (s.timeout g) :=
  congrArg Host.Outcome.next (State.unlessReset_acts hi _)

theorem State.timeout_of_not_outstanding {s : State} {g : DownTag} (h : (s.tag g).isOutstanding = false) :
    s.timeout g = s := by
  unfold State.timeout
  cases tag : s.tag g
  case outstanding => simp [tag, Tag.isOutstanding] at h
  all_goals rfl

/-- A timeout of an OUTSTANDING tag quarantines it before its owner acts (R168). -/
theorem State.timeout_outstanding {s : State} {g : DownTag} {owner : Owner} {cls : IssueClass} {op : Op}
    {addr timer at_ : Nat} {live : Bool} (h : s.tag g = .outstanding owner cls op addr timer at_ live) :
    s.timeout g = ((s.setTag g (.quarantined addr)).expire owner live addr).followOn := by
  unfold State.timeout
  rw [h]

/-- With a tag QUARANTINED the port is stalled when every other tag is. -/
theorem State.portStalled_quarantined {s t : State} {g : DownTag} {a : Nat} (tag : t.tag g = .quarantined a)
    (others : ∀ g', g' ≠ g → t.tag g' = s.tag g') :
    t.portStalled = true ↔ ∀ g', g' ≠ g → (s.tag g').isQuarantined = true := by
  rw [State.portStalled_iff]
  refine ⟨fun all g' other => others g' other ▸ all g', fun rest g' => ?_⟩
  obtain rfl | other := eq_or_ne g' g
  · rw [tag]
    rfl
  · rw [others g' other]
    exact rest g' other

/-- Outside quiesce the stall is no more than its fault (R141, R170). -/
theorem State.stallBegins_running {s : State} (quiescing : s.device ≠ .quiescing) (halted : s.device ≠ .halted) :
    s.stallBegins = s.pushFault stallFault := by
  unfold State.stallBegins
  dsimp only
  split
  · next h => exact absurd h quiescing
  · next h => exact absurd h halted
  · rfl

/-- The free value is used once more. -/
def State.choiceUsed (s : State) : State := { s with freeCount := s.freeCount + 1 }

theorem Keeps.choiceUsed (s : State) : Keeps [.faults, .notices] s s.choiceUsed :=
  ⟨fun p _ => by cases p <;> simp [State.choiceUsed, Part.same, State.region], rfl, rfl, rfl⟩

/-- The expiry that stalls the port: the stall begins before or after the owner acts, as the free value has it (R114,
R170). -/
theorem State.expire_stalled {u : State} (stalled : u.portStalled = true) (owner : Owner) (live : Bool) (addr : Nat) :
    u.expire owner live addr =
      if Config.stallPushedFirst u.freeCount = true then u.choiceUsed.stallBegins.deliver owner live addr none
      else (u.choiceUsed.deliver owner live addr none).stallBegins := if_pos stalled

/-- What the timeout of an ISSUED host request comes to, with `faults` the Fault Queue it leaves (R168). -/
structure TimedOut (s t : State) (g : DownTag) (a : Nat) (pre : List Entry) (e : Entry) (post : List Entry)
    (faults : List FaultEntry) : Prop where
  tag : t.tag g = .quarantined a
  others : ∀ g', g' ≠ g → t.tag g' = s.tag g'
  table : t.table = pre ++ post
  responses : t.responses = s.responses ++ [e.errResponse .media]
  flag : t.flag faultSource = true
  faults : t.faults = faults
  keeps : Keeps [.dport, .table, .drains, .responses, .faults, .notices] s t

section
variable {s : State} {g : DownTag} {a : Nat} {pre post : List Entry} {e : Entry}

/-- The request is answered once its tag is QUARANTINED, with nothing but faults and notices changed between (R168). -/
theorem State.completeEntry_timedOut {u : State} (hr : InRange s) (hs : Stands s pre e post) (issued : e.state = .issued)
    (k : Keeps [.faults, .notices] (s.setTag g (.quarantined a)) u) :
    TimedOut s (u.completeEntry e.tag none) g a pre e post (pushEntry u.faults e.mediaFault) := by
  have table : u.table = s.table := k.part .table rfl
  have entry : u.entry e.tag = some e := by
    rw [State.entry, table]
    exact State.entry_of_stands hr hs
  have pushed : Keeps [.faults, .notices] u (u.pushFault e.mediaFault) := .pushFault u _
  rw [State.completeEntry_err entry issued]
  have answered : Keeps [.table, .drains, .responses] (u.pushFault e.mediaFault)
    ((u.pushFault e.mediaFault).answerError e .media) := .answer _ e .media _
  have tag (g' : DownTag) : ((u.pushFault e.mediaFault).answerError e .media).tag g' =
      if g = g' then .quarantined a else s.tag g' :=
    (State.tag_congr ((answered.part .dport rfl).trans (k.part .dport rfl)) g').trans (s.tag_setTag g g' _)
  refine ⟨(tag g).trans (if_pos rfl), fun g' other => (tag g').trans (if_neg (Ne.symm other)), ?_, ?_, ?_,
    answered.part .faults rfl, ?_⟩
  · have left : s.table.filter (fun x => x.tag ≠ e.tag) = pre ++ post :=
      (s.table_answer e .media []).symm.trans (State.table_answer_of_stands hr hs _ _)
    rw [State.answerError, State.table_answer, ← left, ← table]
    rfl
  · rw [State.answerError, State.responses_answer, errorData_eq]
    exact congrArg (· ++ [e.errResponse .media]) (k.part .responses rfl)
  · exact (answered.flag faultSource rfl).trans (State.flag_setNotice_self _ _)
  · exact ((Keeps.setTag s g _).mono (by decide)).trans
      (((k.trans pushed).mono (by decide)).trans (answered.mono (by decide)))

/-- A fault pushed after a timeout joins the queue the timeout left. -/
theorem TimedOut.pushFault {t : State} {faults : List FaultEntry} (h : TimedOut s t g a pre e post faults) (f : FaultEntry) :
    TimedOut s (t.pushFault f) g a pre e post (pushEntry faults f) where
  tag := h.tag
  others := h.others
  table := h.table
  responses := h.responses
  flag := State.flag_setNotice_self _ _
  faults := congrArg (pushEntry · f) h.faults
  keeps := h.keeps.trans ((Keeps.pushFault t f).mono (by decide))

/-- With another tag not QUARANTINED the timeout pushes the request's fault alone (R168). -/
theorem State.expire_flowing {live : Bool} (hr : InRange s) (hs : Stands s pre e post) (issued : e.state = .issued)
    (flowing : (s.setTag g (.quarantined a)).portStalled = false) :
    TimedOut s ((s.setTag g (.quarantined a)).expire (.entry e.tag) live a) g a pre e post
      (pushEntry s.faults e.mediaFault) := by
  have timedOut := State.completeEntry_timedOut hr hs issued (.refl _ (s.setTag g (.quarantined a)))
  rw [State.expire, flowing]
  exact timedOut

/-- The expiry that brings the quarantine to 32 tags pushes DPORT_STALLED too, first or last by the free value (R170). -/
theorem State.expire_stalls {live : Bool} (hr : InRange s) (hs : Stands s pre e post) (issued : e.state = .issued)
    (quiescing : s.device ≠ .quiescing) (halted : s.device ≠ .halted)
    (stalled : (s.setTag g (.quarantined a)).portStalled = true) :
    ∃ faults, TimedOut s ((s.setTag g (.quarantined a)).expire (.entry e.tag) live a) g a pre e post faults ∧
      (faults = pushEntry (pushEntry s.faults e.mediaFault) stallFault ∨
        faults = pushEntry (pushEntry s.faults stallFault) e.mediaFault) := by
  have used := Keeps.choiceUsed (s.setTag g (.quarantined a))
  rw [State.expire_stalled stalled]
  split
  · have first := State.completeEntry_timedOut hr hs issued (used.trans (.pushFault _ stallFault))
    rw [State.stallBegins_running (s := (s.setTag g (.quarantined a)).choiceUsed) quiescing halted]
    exact ⟨_, first, .inr rfl⟩
  · have answered := State.completeEntry_timedOut hr hs issued used
    have device : ((s.setTag g (.quarantined a)).choiceUsed.completeEntry e.tag none).device = s.device :=
      answered.keeps.part .device rfl
    rw [State.stallBegins_running (device ▸ quiescing) (device ▸ halted)]
    exact ⟨_, answered.pushFault stallFault, .inl rfl⟩

end

/-- Settles O36: the port flows on when another tag is not QUARANTINED, and otherwise the expiry stalls it. -/
theorem timeoutQuarantinesTheTag : Obligations.TimeoutQuarantinesTheTag := by
  intro g s hi
  rw [exec_responseTimeout hi]
  refine ⟨fun h => by rw [State.timeout_of_not_outstanding h],
    fun pre e post cls op a timer at_ live f hr hs issued quiescing halted h hf => ?_⟩
  obtain rfl := hf.eq
  rw [State.timeout_outstanding h]
  refine ⟨_, rfl, ?_⟩
  have stalls : (s.setTag g (.quarantined a)).portStalled = true ↔ ∀ g', g' ≠ g → (s.tag g').isQuarantined = true :=
    State.portStalled_quarantined ((s.tag_setTag g g _).trans (if_pos rfl))
      fun g' other => (s.tag_setTag g g' _).trans (if_neg (Ne.symm other))
  cases port : (s.setTag g (.quarantined a)).portStalled
  · have timedOut := State.expire_flowing (live := live) hr hs issued port
    exact ⟨timedOut.tag, timedOut.others, timedOut.table, timedOut.responses, timedOut.flag, fun _ => timedOut.faults,
      fun all => absurd (port.symm.trans (stalls.mpr all)) (by decide), timedOut.keeps⟩
  · obtain ⟨faults, timedOut, order⟩ := State.expire_stalls (live := live) hr hs issued quiescing halted port
    have all := stalls.mp port
    refine ⟨timedOut.tag, timedOut.others, timedOut.table, timedOut.responses, timedOut.flag, fun ⟨g', other, free⟩ => ?_,
      fun _ => ⟨(State.portStalled_quarantined timedOut.tag timedOut.others).mpr all, timedOut.faults ▸ order⟩,
      timedOut.keeps⟩
    exact absurd (free.symm.trans (all g' other)) (by decide)

end Sys2Proof.Machine
end

section
/-! SUPPORT. Notices (chapter 10): which commands clear a pending flag, what CLAIM selects, what READ_PENDING shows, and the
settings of priorities and threshold. -/

namespace Sys2Proof.Machine

/-! ## Pending flags stay (R175) -/

/-- Every source pending in `s` is pending in `t`. -/
def PendingStays (s t : State) : Prop := ∀ n, s.flag n = true → t.flag n = true

theorem PendingStays.refl (s : State) : PendingStays s s := fun _ => id

theorem PendingStays.kept {s t u : State} (h : PendingStays s t) (k : Kept t u) : PendingStays s u :=
  fun n pending => k.note.flags n (h n pending)

theorem PendingStays.setParamReply (s : State) (code v : Nat) : PendingStays s (setParamReply code v s).state := by
  unfold Machine.setParamReply
  split <;> exact .refl s

/-- SET_PRIORITY touches no flag (R176). -/
theorem PendingStays.setPriorityReply (s : State) (src p : Nat) : PendingStays s (setPriorityReply src p s).state := by
  unfold Machine.setPriorityReply
  split_ifs <;> exact .refl s

/-- SET_THRESHOLD touches no flag (R176). -/
theorem PendingStays.setThresholdReply (s : State) (v : Nat) : PendingStays s (setThresholdReply v s).state := by
  unfold Machine.setThresholdReply
  split_ifs <;> exact .refl s

/-- POP_FAULT leaves the FAULT notice (R117). -/
theorem PendingStays.popFaultReply (s : State) : PendingStays s (popFaultReply s).state := by
  unfold Machine.popFaultReply
  split <;> exact .refl s

theorem PendingStays.endFrame (s : State) : PendingStays s s.endFrame := by
  unfold State.endFrame
  split_ifs <;> exact .refl s

theorem PendingStays.assertReset (s : State) : PendingStays s s.assertReset := by
  rw [State.assertReset_eq, State.abandonWork_eq]
  exact .refl s

theorem PendingStays.tick (s : State) : PendingStays s s.tick := by
  rw [s.tick_eq]
  exact .refl s

/-- The commands that set a part of the state directly, CLAIM and the end of reset apart, clear no flag. -/
theorem PendingStays.of_setsState {c : Instr} {s t : State} (hc : setsState c = true) (claim : c ≠ .claim)
    (release : ∀ m b, c ≠ .resetRelease m b) (he : exec c s = .next t) : PendingStays s t := by
  have stands := PendingStays.refl s
  have hold (t : State) (f : Frame) (h : PendingStays s t) : PendingStays s (t.holdFrame f) := h
  cases c <;> cases hc
  case claim => exact absurd rfl claim
  case resetRelease m b => exact absurd rfl (release m b)
  case stage => exact execStage_keeps hold stands (fun _ _ _ _ => stands) he
  case format => exact execFormat_keeps hold stands (fun k h => h.kept k) (fun _ _ _ _ => stands) he
  case upstreamRequest => exact execUpstreamRequest_keeps stands (fun k h => h.kept k) stands (fun _ _ => stands) he
  all_goals cases he
  case setParam => exact State.takeCommand_keeps hold stands (gated_keeps stands fun _ => .setParamReply s _ _)
  case setPriority => exact State.takeCommand_keeps hold stands (gated_keeps stands fun _ => .setPriorityReply s _ _)
  case setThreshold => exact State.takeCommand_keeps hold stands (gated_keeps stands fun _ => .setThresholdReply s _)
  case popFault => exact State.takeCommand_keeps hold stands (gated_keeps stands fun _ => .popFaultReply s)
  case frameDiscard =>
    split_ifs
    · exact .endFrame s
    · exact stands
  case frameEnd => exact .endFrame s
  case resetAssert => exact .assertReset s
  case firstIssueDelayExpiry => exact State.unlessReset_keeps stands fun _ => stands
  case downstreamIssue =>
    exact State.unlessReset_keeps stands fun _ => State.issueNext_keeps stands fun _ _ _ _ _ _ _ => stands
  case tick =>
    exact State.unlessReset_keeps stands fun _ => (PendingStays.tick s).kept ((Kept.takeExpiries _).trans (.followOn _))

/-- Every command but CLAIM and the end of reset leaves the pending sources pending. -/
theorem PendingStays.exec {c : Instr} {s t : State} (claim : c ≠ .claim) (release : ∀ m b, c ≠ .resetRelease m b)
    (he : exec c s = .next t) : PendingStays s t := by
  cases hc : setsState c with
  | false =>
    obtain ⟨u, hu, k⟩ := exec_kept hc s
    obtain rfl : u = t := Host.Outcome.next.inj (hu.symm.trans he)
    obtain k | ⟨v, f, k, rfl⟩ := k
    · exact k.note.flags
    · exact k.note.flags
  | true => exact .of_setsState hc claim release he

/-! ## CLAIM (R178) -/

theorem beBytes_one (v : Nat) : beBytes 1 v = [BitVec.ofNat 8 v] := by simp [beBytes]

theorem claimReply_some {s : State} {n : Source} (h : claimed s.notices = some n) :
    claimReply s = ⟨.ok, [BitVec.ofNat 8 n.val], s.clearNotice n⟩ := by
  rw [claimReply, h, ← beBytes_one]

theorem claimReply_none {s : State} (h : claimed s.notices = none) : claimReply s = ⟨.ok, [0], s⟩ := by
  rw [claimReply, h, beBytes_one]
  rfl

/-- CLAIM clears the flag of the source it selects and no other. -/
theorem claimReply_flag {s : State} {n : Source} (pending : s.flag n = true) :
    (claimReply s).state.flag n = true ∨ claimed s.notices = some n := by
  cases selected : claimed s.notices with
  | none =>
    rw [claimReply_none selected]
    exact .inl pending
  | some m =>
    rw [claimReply_some selected, State.flag_clearNotice, pending]
    by_cases same : m = n
    · exact .inr (congrArg some same)
    · exact .inl (by simp [same])

/-- Settles O60: CLAIM by its selection, and every other command by `PendingStays.exec`. -/
theorem onlyClaimAndResetClearANotice : Obligations.OnlyClaimAndResetClearANotice := by
  intro c s t n he pending release
  by_cases claim : c = .claim
  · subst claim
    cases he
    exact (State.takeCommand_keeps (P := fun t => t.flag n = true ∨ claimed s.notices = some n) (fun _ _ h => h)
      (.inl pending) (claimReply_flag pending)).imp_right fun selected => ⟨rfl, selected⟩
  · exact .inl (PendingStays.exec claim release he n pending)

theorem signals_iff (s : State) (n : Source) : signals s.notices n = true ↔ Signalling s n := by
  simp [signals, Signalling, State.flag]

theorem mem_allSources (n : Source) : n ∈ allSources ↔ n ≠ 0 := by
  revert n
  decide

theorem allSources_ascending : allSources.Pairwise (· < ·) := by decide

/-- CLAIM's search is the library's for the first greatest of a list, here of the signalling sources by priority. -/
theorem claimed_eq_argmax (n : Notices) : claimed n = (allSources.filter (signals n)).argmax n.priority.get := by
  have pick (best : Option Source) (src : Source) :
      (if signals n src && better n best src then some src else best) =
        if signals n src then List.argAux (fun b c => n.priority.get c < n.priority.get b) best src else best := by
    cases signals n src <;> cases best <;> simp [better, List.argAux]
  simp only [claimed, pick, List.argmax, List.foldl_filter]

/-- In an ascending list the lesser of two members comes first. -/
theorem idxOf_le_idxOf {l : List Source} (ascending : l.Pairwise (· < ·)) {n m : Source} (hn : n ∈ l) (hm : m ∈ l)
    (h : n ≤ m) : l.idxOf n ≤ l.idxOf m := by
  by_contra later
  have less := List.pairwise_iff_getElem.mp ascending _ _ (List.idxOf_lt_length_iff.mpr hm)
    (List.idxOf_lt_length_iff.mpr hn) (Nat.lt_of_not_le later)
  rw [List.getElem_idxOf, List.getElem_idxOf] at less
  exact absurd less (not_lt.mpr h)

/-- The sources CLAIM chooses among are those that signal. -/
theorem mem_filter_signals (s : State) (n : Source) :
    n ∈ allSources.filter (signals s.notices) ↔ n ≠ 0 ∧ Signalling s n := by
  rw [List.mem_filter, mem_allSources, signals_iff]

/-- CLAIM selects the signalling source that every other one gives way to (R178). -/
theorem claimed_eq_some {s : State} {n : Source} (source : n ≠ 0) (hn : Signalling s n)
    (best : ∀ m : Source, m ≠ 0 → Signalling s m → s.notices.priority.get m < s.notices.priority.get n ∨
      s.notices.priority.get m = s.notices.priority.get n ∧ n ≤ m) : claimed s.notices = some n := by
  have member := (mem_filter_signals s n).mpr ⟨source, hn⟩
  rw [claimed_eq_argmax]
  refine List.argmax_eq_some_iff.mpr ⟨member, fun m hm => ?_, fun m hm tie => ?_⟩ <;>
    obtain ⟨hm0, signalling⟩ := (mem_filter_signals s m).mp hm
  · obtain less | ⟨equal, -⟩ := best m hm0 signalling
    · exact less.le
    · exact equal.le
  · obtain less | ⟨-, first⟩ := best m hm0 signalling
    · exact absurd less (not_lt.mpr tie)
    · exact idxOf_le_idxOf (allSources_ascending.filter _) member hm first

theorem claimed_eq_none {s : State} (h : ∀ n : Source, n ≠ 0 → ¬Signalling s n) : claimed s.notices = none := by
  rw [claimed_eq_argmax, List.argmax_eq_none, List.eq_nil_iff_forall_not_mem]
  exact fun n member => h n ((mem_filter_signals s n).mp member).1 ((mem_filter_signals s n).mp member).2

/-- Settles O14: the answer by what CLAIM selects. -/
theorem claimTakesTheGreatestPriority : Obligations.ClaimTakesTheGreatestPriority := by
  intro s hl
  have takes := takes_of_reply (c := .claim) (owner := claimReply) hl rfl
  refine ⟨fun n source hn best => ?_, fun none => ?_⟩
  · rwa [claimReply_some (claimed_eq_some source hn best)] at takes
  · rwa [claimReply_none (claimed_eq_none none)] at takes

/-! ## READ_PENDING (R180) and ALERT_N (R176, R177) -/

/-- The number of some bits, each at its own weight. -/
theorem sum_bits_eq_ofBits {n : Nat} (f : Fin n → Bool) : (∑ i, if f i then 2 ^ i.val else 0) = Nat.ofBits f := by
  induction n with
  | zero => rfl
  | succ n ih =>
    rw [Fin.sum_univ_succ, Nat.ofBits_succ, ← ih, Finset.mul_sum, Nat.add_comm]
    congr 1
    · exact Finset.sum_congr rfl fun i _ => by simp [pow_succ']
    · cases f 0 <;> rfl

/-- The mask has bit `n` for source `n`, the number 0 naming no source. -/
theorem State.pendingMask_eq {s : State} (h : s.flag 0 = false) : s.pendingMask = Nat.ofBits s.flag := by
  have all : List.finRange 28 = 0 :: allSources := by decide
  rw [State.pendingMask, ← List.foldl_map (g := (· + ·)) (f := fun n : Source => if s.flag n then 2 ^ n.val else 0),
    ← List.sum_eq_foldl, ← sum_bits_eq_ofBits, Fin.sum_univ_def, all, List.map_cons, List.sum_cons, h]
  simp

/-- ALERT_N by the signalling sources (R177). -/
theorem State.alert_iff {s : State} (h : s.flag 0 = false) :
    s.alert = true ↔ s.inReset = false ∧ ∃ n, Signalling s n := by
  have source (n : Source) (hn : Signalling s n) : n ∈ allSources := by
    refine (mem_allSources n).mpr fun zero => ?_
    rw [zero, Signalling, h] at hn
    exact Bool.false_ne_true hn.1
  rw [State.alert, Bool.and_eq_true, Bool.not_eq_true', List.any_eq_true]
  simp only [signals_iff]
  exact and_congr_right fun _ => exists_congr fun n => ⟨And.right, fun hn => ⟨source n hn, hn⟩⟩

/-- Settles O12: the data are the mask, the threshold and ALERT_N one after another, and the mask is its bits. -/
theorem readPendingReportsTheFlags : Obligations.ReadPendingReportsTheFlags := by
  refine ⟨fun s hi hl => ?_, fun s hi => State.alert_iff hi.noSource⟩
  have takes : Takes .readPending s .ok s.pendingData s := takes_of_reply (owner := readReply State.pendingData) hl rfl
  have mask : s.pendingMask = Nat.ofBits s.flag := State.pendingMask_eq hi.noSource
  have fits : s.pendingMask < 256 ^ 4 := mask ▸ (Nat.ofBits_lt_two_pow s.flag).trans (by decide)
  have threshold : s.notices.threshold < 256 ^ 1 := hi.threshold.trans_lt (by decide)
  have data : s.pendingData = beBytes 4 s.pendingMask ++ (beBytes 1 s.notices.threshold ++ beBytes 1 (yesNo s.alert)) :=
    List.append_assoc _ _ _
  have flags : field s.pendingData 0 4 = Nat.ofBits s.flag := by
    rw [data, field_beBytes_append, Nat.mod_eq_of_lt fits, mask]
  refine ⟨s.pendingData, takes, ?_, fun n => ?_, fun i past => ?_, ?_, ?_⟩
  · rw [data]
    simp only [List.length_append, length_beBytes]
  · rw [flags, Nat.testBit_ofBits_lt s.flag n.val n.isLt]
  · rw [flags, Nat.testBit_ofBits_ge s.flag i past]
  · rw [data, field_beBytes_skip (by decide), field_beBytes_append, Nat.mod_eq_of_lt threshold]
  · rw [data, field_beBytes_skip (by decide), field_beBytes_skip (by decide), field_beBytes]
    exact Nat.mod_eq_of_lt (yesNo_lt s.alert)

/-! ## SET_PRIORITY and SET_THRESHOLD (R176) -/

theorem setPriorityReply_ok {n : Source} {src p : Nat} (hn : src = n.val) (source : n ≠ 0) (hp : p ≤ 7) (s : State) :
    setPriorityReply src p s =
      done { s with notices := { s.notices with priority := s.notices.priority.set n.val p } } := by
  subst hn
  rw [setPriorityReply, dif_pos n.isLt, if_pos ⟨Fin.val_ne_zero_iff.mpr source, hp⟩]

theorem setPriorityReply_badArg {src p : Nat} (h : src = 0 ∨ 27 < src ∨ 7 < p) (s : State) :
    setPriorityReply src p s = s.reply .badArg := by
  unfold setPriorityReply
  split_ifs with below range
  · omega
  · rfl
  · rfl

/-- Settles O28: each answer is its command's test, passed or failed. -/
theorem priorityAndThresholdAreSetWithinRange : Obligations.PriorityAndThresholdAreSetWithinRange := by
  intro s hl hs
  refine ⟨fun n b p hb source hp => ?_, fun b p h => ?_, fun p hp => ?_, fun p hp => ?_⟩
  · exact takes_gated hl hs rfl (setPriorityReply_ok hb source hp s)
  · exact takes_gated hl hs rfl (setPriorityReply_badArg (h.imp_left (congrArg BitVec.toNat)) s)
  · exact takes_gated hl hs rfl (if_pos hp)
  · exact takes_gated hl hs rfl (if_neg (not_le.mpr hp))

end Sys2Proof.Machine
end

section
/-! SUPPORT. The bytes of a link command's frame (Table 11-4, R185, R193): a frame's bytes spell its command, and no frame's
bytes begin with another's. -/

namespace Sys2Proof.Machine

/-! ## A command from its bytes -/

/-- The bytes of an operand field give the operand back. -/
theorem ofNat_beNumber_beBytes {w len : Nat} (v : BitVec w) (h : 2 ^ w = 256 ^ len) :
    BitVec.ofNat w (beNumber (beBytes len v.toNat)) = v := by
  have fits : v.toNat < 256 ^ len := h ▸ v.isLt
  rw [beNumber_beBytes, Nat.mod_eq_of_lt fits, BitVec.ofNat_toNat, BitVec.setWidth_eq]

theorem decodeApply_unknownPoint (r : Byte) {point : Byte} (h : 3 < point.toNat) :
    decodeApply r point = .unknownCommand 0x11 [r, point] := by
  unfold decodeApply
  split
  case h_5 => rfl
  all_goals omega

/-- An unlisted code is a command by itself (R185). -/
theorem decodeFrame_unlisted {code : Byte} (h : operandBytes code.toNat = none) :
    decodeFrame [code] = some (.unknownCommand code []) := by
  unfold decodeFrame
  dsimp only
  split
  case h_21 => exact if_pos (Option.isNone_iff_eq_none.mpr h)
  all_goals simp_all [operandBytes]

/-- An APPLY with a point code that names no point (R10). -/
theorem decodeFrame_unknownPoint {code r point : Byte} (hc : code.toNat = applyCode) (h : 3 < point.toNat) :
    decodeFrame [code, r, point] = some (.unknownCommand code [r, point]) := by
  obtain rfl : code = 0x11 := BitVec.eq_of_toNat_eq hc
  exact congrArg some (decodeApply_unknownPoint r h)

/-- The two forms of an unknown command's bytes (R10, R185). -/
theorem decodeFrame_unknownCommand {code : Byte} {operands : List Byte} (h : (Instr.unknownCommand code operands).wf = true) :
    decodeFrame (code :: operands) = some (.unknownCommand code operands) := by
  obtain unlisted | point := Bool.or_eq_true_iff.mp h
  · obtain ⟨code, empty⟩ := Bool.and_eq_true_iff.mp unlisted
    obtain rfl := List.isEmpty_iff.mp empty
    exact decodeFrame_unlisted (Option.isNone_iff_eq_none.mp code)
  · unfold unknownPoint at point
    split at point
    · obtain ⟨apply, above⟩ := Bool.and_eq_true_iff.mp point
      exact decodeFrame_unknownPoint (of_decide_eq_true apply) (of_decide_eq_true above)
    · cases point

/-- Settles O3: a command with operand fields is read back from their bytes, and an unknown one is its bytes; the rest have
single bytes for operands. -/
theorem linkFrameSpellsItsCommand : Obligations.LinkFrameSpellsItsCommand := by
  intro c wellFormed carried
  cases c
  case unknownCommand code operands => exact decodeFrame_unknownCommand wellFormed
  case stage r f v =>
    have value := ofNat_beNumber_beBytes (len := 4) v rfl
    exact congrArg (fun x => some (Instr.stage r f x)) value
  case setParam p v =>
    have value := ofNat_beNumber_beBytes (len := 2) v rfl
    exact congrArg (fun x => some (Instr.setParam p x)) value
  case format base units =>
    have base' := ofNat_beNumber_beBytes (len := 3) base rfl
    have units' := ofNat_beNumber_beBytes (len := 2) units rfl
    exact congrArg₂ (fun x y => some (Instr.format x y)) base' units'
  case frameDiscard | resetAssert | resetRelease | firstIssueDelayExpiry | powerFailWarning | upstreamRequest | entryStart
      | downstreamIssue | downstreamResponse | responseTimeout | tick | ageExpiry | chooseNextWork | commitDrainComplete
      | walkStart | walkDrainComplete | formatAnchorWrites | recoveryEnd | settlingEnd | frameEnd =>
    exact absurd rfl carried
  all_goals rfl

/-! ## No command's bytes begin with another's -/

/-- Bytes that spell a command are as many as its code asks for: its operand bytes for a listed code, and none for an unlisted
one (R182, R185). -/
theorem decodeFrame_operands {code : Byte} {ops : List Byte} {c : Instr} (h : decodeFrame (code :: ops) = some c) :
    ops.length = (operandBytes code.toNat).getD 0 := by
  unfold decodeFrame at h
  dsimp only at h
  split at h
  case h_21 =>
    split_ifs at h with unlisted
    rw [Option.isNone_iff_eq_none.mp unlisted]
    rfl
  case h_22 => cases h
  all_goals
    next listed => rw [listed]; rfl

/-- Of two frames that each spell a command, neither continues the other. -/
theorem eq_nil_of_decodeFrame_append {pre rest : List Byte} {c c' : Instr} (whole : decodeFrame (pre ++ rest) = some c)
    (part : decodeFrame pre = some c') : rest = [] := by
  cases pre with
  | nil => cases part
  | cons code ops =>
    have long := decodeFrame_operands whole
    have short := decodeFrame_operands part
    have total : (ops ++ rest).length = ops.length + rest.length := List.length_append
    exact List.length_eq_zero_iff.mp (Nat.add_left_cancel (total.symm.trans (long.trans short.symm)))

end Sys2Proof.Machine
end

section
/-! SUPPORT. What the reads of the link answer in every device state: IDENT (R188), READ_STATUS (R189), READ_LOG (R190) and
READ_PARAM (R192). Each answer's bytes are its table's fields one after another, and a field is read back where it was put. -/

namespace Sys2Proof.Machine

/-- A read is taken with its data and leaves the part as it stands. -/
theorem takes_read {c : Instr} {s : State} {len : Nat} {data : State → List Byte} (hl : LinkReady s)
    (he : exec c s = .next (s.takeCommand c len (readReply data))) : Takes c s .ok (data s) s :=
  takes_of_reply hl he

/-! ## IDENT (R188) -/

theorem State.identData_eq (s : State) : s.identData = [0x20, 0x80, 0x01, BitVec.ofNat 8 s.msize.val] := by
  unfold State.identData
  rw [beBytes_one s.msize.val]
  rfl

/-- Settles O7. -/
theorem identReportsTheDevice : Obligations.IdentReportsTheDevice := fun s hl =>
  s.identData_eq ▸ takes_read (data := State.identData) hl rfl

/-! ## READ_PARAM (R192) -/

theorem Params.value_eq_none (p : Params) {code : Nat} (h : 4 < code) : p.value code = none := by
  obtain ⟨n, rfl⟩ := Nat.exists_eq_add_of_lt h
  rw [show 4 + n + 1 = n + 5 by omega]
  rfl

/-- A parameter within its range (Table 11-5) fits two bytes. -/
theorem Params.InRange.value_lt {p : Params} (h : p.InRange) {code v : Nat} (hv : p.value code = some v) : v < 256 ^ 2 := by
  obtain ⟨-, tick, retry, stride, watermark, -, dto⟩ := h
  unfold Params.value at hv
  split at hv <;> cases hv <;> omega

theorem readParamReply_some {p : Byte} {s : State} {v : Nat} (h : s.params.value p.toNat = some v) :
    readParamReply p s = ⟨.ok, beBytes 2 v, s⟩ := by
  unfold readParamReply
  rw [h]

theorem readParamReply_none {p : Byte} {s : State} (h : s.params.value p.toNat = none) :
    readParamReply p s = s.reply .badArg := by
  unfold readParamReply
  rw [h]

/-- Settles O11: a code names a parameter or none. -/
theorem readParamReportsTheParameter : Obligations.ReadParamReportsTheParameter := by
  intro p s hi hl
  have takes := takes_of_reply (c := .readParam p) (owner := readParamReply p) hl rfl
  refine ⟨fun v named => ?_, fun above => ?_⟩
  · have value : s.params.value p.toNat = some v := by
      obtain ⟨rfl, rfl⟩ | ⟨rfl, rfl⟩ | ⟨rfl, rfl⟩ | ⟨rfl, rfl⟩ | ⟨rfl, rfl⟩ := named <;> rfl
    rw [readParamReply_some value] at takes
    exact ⟨_, takes, length_beBytes 2 v, (field_beBytes 2 v).trans (Nat.mod_eq_of_lt (hi.params.value_lt value))⟩
  · rwa [readParamReply_none (s.params.value_eq_none above)] at takes

/-! ## READ_STATUS (R189) -/

theorem DeviceState.code_lt (d : DeviceState) : d.code < 256 := by cases d <;> decide

theorem Phase.code_lt (p : Phase) : p.code < 256 := by cases p <;> decide

/-- Every entry is in one of the six entry states. -/
theorem countP_entryStates (table : List Entry) :
    table.countP (fun e => e.state = .waitOrder) + table.countP (fun e => e.state = .waitRegion) +
      table.countP (fun e => e.state = .waitLog) + table.countP (fun e => e.state = .waitSpace) +
      table.countP (fun e => e.state = .ready) + table.countP (fun e => e.state = .issued) = table.length := by
  induction table with
  | nil => rfl
  | cons e rest ih =>
    rw [List.length_cons, ← ih]
    simp only [List.countP_cons]
    cases e.state <;> simp <;> omega

/-- READ_STATUS's data, field after field (Table 11-6). -/
theorem State.statusData_eq (s : State) :
    s.statusData = beBytes 1 s.device.code ++ (beBytes 1 s.powerFail.phase.code ++ (beBytes 1 s.table.length ++
      (beBytes 1 (s.table.countP fun e => e.state = .waitOrder) ++ (beBytes 1 (s.table.countP fun e => e.state = .waitRegion) ++
      (beBytes 1 (s.table.countP fun e => e.state = .waitLog) ++ (beBytes 1 (s.table.countP fun e => e.state = .waitSpace) ++
      (beBytes 1 (s.table.countP fun e => e.state = .ready) ++ (beBytes 1 (s.table.countP fun e => e.state = .issued) ++
      (beBytes 2 s.directory.length ++ (beBytes 1 s.engine.queue.length ++
      (beBytes 1 (orNone8 (s.engine.walk.map Fin.val)) ++ (beBytes 1 s.faults.length ++
      (beBytes 1 (allTags.countP fun g => (s.tag g).isOutstanding) ++
      (beBytes 1 (allTags.countP fun g => (s.tag g).isQuarantined) ++ beBytes 1 (yesNo s.portStalled))))))))))))))) := by
  simp only [State.statusData, State.countEntries, State.countTags, List.flatMap_cons, List.flatMap_nil, List.append_nil,
    List.append_assoc]
  rfl

/-- A count of the table's entries fits its byte (R152). -/
theorem InRange.countP_table_lt {s : State} (h : InRange s) (p : Entry → Bool) : s.table.countP p < 256 :=
  (List.countP_le_length.trans h.table).trans_lt (by decide)

/-- A count of the tags fits its byte (R161). -/
theorem countP_allTags_lt (p : DownTag → Bool) : allTags.countP p < 256 :=
  List.countP_le_length.trans_lt (by decide)

theorem yesNo_eq_one_iff (b : Bool) : yesNo b = 1 ↔ b = true := by cases b <;> decide

theorem yesNo_le_one (b : Bool) : yesNo b ≤ 1 := by cases b <;> decide

/-- Settles O8: each field is read back where it was put, and each but the queue's length fits its bytes. -/
theorem readStatusReportsThePart : Obligations.ReadStatusReportsThePart := by
  intro s hi hl
  have device := Nat.mod_eq_of_lt s.device.code_lt
  have phase := Nat.mod_eq_of_lt s.powerFail.phase.code_lt
  have table : s.table.length % 256 = s.table.length := Nat.mod_eq_of_lt (hi.table.trans_lt (by decide))
  have entries (p : Entry → Bool) := Nat.mod_eq_of_lt (hi.countP_table_lt p)
  have directory : s.directory.length % 65536 = s.directory.length := Nat.mod_eq_of_lt (hi.directory.trans_lt (by decide))
  have walk := Nat.mod_eq_of_lt (orNone8_region_lt s.engine.walk)
  have faults : s.faults.length % 256 = s.faults.length := Nat.mod_eq_of_lt (hi.faults.trans_lt (by decide))
  have tags (p : DownTag → Bool) := Nat.mod_eq_of_lt (countP_allTags_lt p)
  have stalled : yesNo s.portStalled % 256 = yesNo s.portStalled := Nat.mod_eq_of_lt (yesNo_lt s.portStalled)
  refine ⟨s.statusData, takes_read hl rfl, ?_⟩
  rw [State.statusData_eq]
  simp only [List.length_append, length_beBytes, field_beBytes_skip, field_beBytes_append, field_beBytes, Nat.reduceLeDiff,
    Nat.reduceSub, Nat.reducePow, device, phase, table, entries, directory, walk, faults, tags, stalled, true_and]
  refine ⟨countP_entryStates s.table, ?_, ?_, yesNo_le_one s.portStalled, fun law quiescing halted => ?_⟩
  · cases s.engine.walk <;> rfl
  · rw [yesNo_eq_one_iff, State.portStalled_iff]
  · rw [law.other quiescing halted]
    rfl

/-! ## READ_LOG (R190) -/

theorem LogState.ring_of_geometry {l : LogState} {g : Geometry} (h : l.geometry = some g) : l.ring = g.blocks := by
  unfold LogState.ring
  rw [h]

theorem LogState.ring_of_no_geometry {l : LogState} (h : l.geometry = none) : l.ring = 0 := by
  unfold LogState.ring
  rw [h]

theorem LogState.free_of_no_geometry {l : LogState} (h : l.geometry = none) : l.free = 0 :=
  if_pos (LogState.ring_of_no_geometry h)

/-- READ_LOG's data, field after field (Table 11-8). -/
theorem State.logData_eq (s : State) :
    s.logData = beBytes 1 (yesNo s.log.geometry.isSome) ++ (beBytes 4 (s.log.geometry.elim 0 Geometry.base) ++
      (beBytes 4 (s.log.geometry.elim 0 Geometry.size) ++ (beBytes 4 s.log.ring ++ (beBytes 4 s.log.generation.toNat ++
      (beBytes 4 s.log.nextSeq.toNat ++ (beBytes 4 s.log.head ++ (beBytes 4 s.log.volatileTail ++
      (beBytes 4 s.log.tailSeq.toNat ++ (beBytes 4 s.log.durableTail ++ (beBytes 1 (orNone8 (s.log.slot.map Fin.val)) ++
      (beBytes 4 s.log.anchorSeq.toNat ++ (beBytes 1 s.log.unresolved ++ (beBytes 1 (yesNo s.log.anchor.isSome) ++
      (beBytes 4 (orNone (s.log.anchor.map AnchorWrite.tail)) ++ (beBytes 1 (yesNo s.log.anchorWanted) ++
      (beBytes 1 (orNone8 (s.log.deferred.map fun d => d.region.val)) ++ (beBytes 1 (s.log.deferred.elim 0 Deferred.lines) ++
      (beBytes 1 (yesNo s.log.below) ++ beBytes 4 s.log.free)))))))))))))))))) := by
  unfold State.logData
  dsimp only
  simp only [List.append_assoc]

/-- Settles O9: each field is read back where it was put, modulo its width where it may not fit. -/
theorem readLogReportsTheLog : Obligations.ReadLogReportsTheLog := by
  intro s hl
  have word (x : Word32) : x.toNat % 4294967296 = x.toNat := Nat.mod_eq_of_lt x.isLt
  refine ⟨s.logData, takes_read hl rfl, ?_⟩
  rw [State.logData_eq]
  simp only [List.length_append, length_beBytes, field_beBytes_skip, field_beBytes_append, field_beBytes, Nat.reduceLeDiff,
    Nat.reduceSub, Nat.reducePow, true_and, and_true]
  refine ⟨fun unset => ?_, fun g ring => ?_, word _, word _, word _, ?_, word _, fun idle => ?_, fun a writing => ?_,
    Nat.mod_eq_of_lt (yesNo_lt _), fun vacant => ?_, fun d waiting => ?_, Nat.mod_eq_of_lt (yesNo_lt _)⟩
  · rw [LogState.free_of_no_geometry unset, LogState.ring_of_no_geometry unset, unset]
    exact ⟨rfl, rfl, rfl, rfl, rfl⟩
  · rw [LogState.ring_of_geometry ring, ring]
    exact ⟨rfl, rfl, rfl, rfl⟩
  · cases s.log.slot with
    | none => rfl
    | some i => exact Nat.mod_eq_of_lt (i.isLt.trans (by decide))
  · rw [idle]
    exact ⟨rfl, rfl⟩
  · rw [writing]
    exact ⟨rfl, rfl⟩
  · rw [vacant]
    exact ⟨rfl, rfl⟩
  · rw [waiting]
    exact ⟨Nat.mod_eq_of_lt (d.region.isLt.trans (by decide)), rfl⟩

end Sys2Proof.Machine
end

section
/-! SUPPORT. What the link turns away by device state and by region number (R186), and SET_PARAM (R191). -/

namespace Sys2Proof.Machine

/-! ## The commands the link gates (R186) -/

/-- The commands of Table 11-3 reach their owner through the gate. -/
theorem exec_gated {c : Instr} {n : Nat} (h : gatedLength c = some n) :
    ∃ owner, ∀ s, exec c s = .next (s.takeCommand c n (gated owner)) := by
  cases c
  case readRegion | stage | applyNow | applyAtClose | applyAtBegin | applyCancel | beginTxn | commit | abort | retry | format
      | setParam | setPriority | setThreshold | popFault | dportClear =>
    cases h
    exact ⟨_, fun _ => rfl⟩
  all_goals cases h

/-- The commands on a region reach its owner through the gate and the check of their operand. -/
theorem exec_onRegion {c : Instr} {b : Byte} {n : Nat} (h : regionOperand c = some (b, n)) :
    ∃ owner, ∀ s, exec c s = .next (s.takeCommand c n (gated (onRegion b owner))) := by
  cases c
  case readRegion | stage | applyNow | applyAtClose | applyAtBegin | applyCancel | beginTxn | commit | abort | retry =>
    cases h
    exact ⟨_, fun _ => rfl⟩
  all_goals cases h

/-- Settles O15. -/
theorem linkRefusesByDeviceStateAndRegion : Obligations.LinkRefusesByDeviceStateAndRegion := by
  refine ⟨fun c n s gatedCommand hl turned => ?_, fun c b n s onRegionCommand above hl hs => ?_⟩
  · obtain ⟨owner, he⟩ := exec_gated gatedCommand
    have takes := takes_of_reply hl (he s)
    rwa [gated_of_not_serving turned] at takes
  · obtain ⟨owner, he⟩ := exec_onRegion onRegionCommand
    exact takes_noRegion hl hs above (he s)

/-! ## SET_PARAM (R191) -/

theorem Params.set_tickPeriod (p : Params) {v : Nat} (low : 1 ≤ v) (top : v ≤ 1024) :
    p.set 0 v = some { p with tickPeriod := v } := if_pos ⟨low, top⟩

theorem Params.set_retryLimit (p : Params) {v : Nat} (top : v ≤ 7) : p.set 1 v = some { p with retryLimit := v } :=
  if_pos top

theorem Params.set_anchorStride (p : Params) {v : Nat} (top : v ≤ 65535) : p.set 2 v = some { p with anchorStride := v } :=
  if_pos top

theorem Params.set_spaceWatermark (p : Params) {v : Nat} (top : v ≤ 65535) :
    p.set 3 v = some { p with spaceWatermark := v } := if_pos top

theorem Params.set_dto (p : Params) {v : Nat} (low : 1 ≤ v) (top : v ≤ 255) : p.set 4 v = some { p with dto := v } :=
  if_pos ⟨low, top⟩

/-- The codes and values that SET_PARAM does not take (Table 11-5); two bytes hold no value too great for codes 2 and 3. -/
theorem Params.set_eq_none (p : Params) {code v : Nat}
    (h : 4 < code ∨ code = 0 ∧ (v = 0 ∨ 1024 < v) ∨ code = 1 ∧ 7 < v ∨ code = 4 ∧ (v = 0 ∨ 255 < v)) :
    p.set code v = none := by
  unfold Params.set
  split
  case h_6 => rfl
  all_goals exact if_neg (by omega)

section
variable {p : Byte} {v : BitVec 16} {s : State}

/-- A value within the parameter's range is written. -/
theorem takes_setParam {q : Params} (hl : LinkReady s) (hs : Serving s) (h : s.params.set p.toNat v.toNat = some q) :
    Takes (.setParam p v) s .ok [] { s with params := q } := by
  refine takes_gated hl hs rfl ?_
  unfold setParamReply
  rw [h]
  rfl

/-- A value or code that SET_PARAM does not take. -/
theorem takes_setParam_badArg (hl : LinkReady s) (hs : Serving s) (h : s.params.set p.toNat v.toNat = none) :
    Takes (.setParam p v) s .badArg [] s := by
  refine takes_gated hl hs rfl ?_
  unfold setParamReply
  rw [h]
  rfl

end

/-- Settles O27: each parameter's value is in its range or not. -/
theorem setParamWritesWithinRange : Obligations.SetParamWritesWithinRange := by
  intro p v s hl
  refine ⟨fun turned => takes_gated_busy hl turned rfl, fun hs => ?_⟩
  have twoBytes : v.toNat ≤ 65535 := Nat.le_of_lt_succ v.isLt
  refine ⟨?_, ?_, ?_, ?_, ?_, fun refused => takes_setParam_badArg hl hs (s.params.set_eq_none ?_)⟩
  · rintro rfl low top
    exact takes_setParam hl hs (s.params.set_tickPeriod low top)
  · rintro rfl top
    exact takes_setParam hl hs (s.params.set_retryLimit top)
  · rintro rfl
    exact takes_setParam hl hs (s.params.set_anchorStride twoBytes)
  · rintro rfl
    exact takes_setParam hl hs (s.params.set_spaceWatermark twoBytes)
  · rintro rfl low top
    exact takes_setParam hl hs (s.params.set_dto low top)
  · exact refused.imp_right (Or.imp (And.imp_left (congrArg BitVec.toNat))
      (Or.imp (And.imp_left (congrArg BitVec.toNat)) (And.imp_left (congrArg BitVec.toNat))))

end Sys2Proof.Machine
end

section
/-! SUPPORT. The link bit by bit (R182, R183): eight edges of SCK receive a byte, a command's bytes take it on their last
bit, and each phase of a frame has its byte on SDO (Table 11-1). -/

namespace Sys2Proof.Machine

/-! ## Frames and the free link (R183, R187) -/

theorem State.endFrame_runs {s : State} (h : s.inReset = false) : s.endFrame = { s with link := ⟨false, none⟩ } :=
  if_neg (Bool.eq_false_iff.mp h)

/-- The discard of a frame whose command was not taken. -/
theorem exec_frameDiscard {bytes : List Byte} {s : State} (incomplete : incompleteFrame bytes = true)
    (untaken : ∀ f, s.link.frame = some f → f.answer = none) : exec (.frameDiscard bytes) s = .next s.endFrame := by
  have notTaken : s.link.holdsTaken = false := by
    unfold Link.holdsTaken
    cases held : s.link.frame with
    | none => rfl
    | some f => exact Option.isSome_eq_false_iff.mpr (Option.isNone_iff_eq_none.mpr (untaken f held))
  exact congrArg Host.Outcome.next (if_pos (by rw [incomplete, notTaken]; rfl))

theorem State.linkFree_held {s : State} (h : s.link.frame ≠ none) : s.linkFree = false := by
  rw [State.linkFree, Option.isNone_eq_false_iff.mpr (Option.isSome_iff_ne_none.mpr h), Bool.and_false]

theorem State.takeCommand_held {s : State} (h : s.link.frame ≠ none) (c : Instr) (len : Nat) (owner : State → Reply) :
    s.takeCommand c len owner = s := if_neg (Bool.eq_false_iff.mp (State.linkFree_held h))

theorem State.takeUnknown_held {s : State} (h : s.link.frame ≠ none) (code : Byte) (operands : List Byte) :
    s.takeUnknown code operands = s := by
  unfold State.takeUnknown
  rw [State.takeCommand_held h, State.takeCommand_held h, ite_self, ite_self]

/-- A link command finds no free link while a frame is held. -/
theorem exec_held {c : Instr} {s : State} (carried : frameBytes c ≠ []) (held : s.link.frame ≠ none) :
    exec c s = .next s := by
  cases c
  case unknownCommand code operands => exact congrArg Host.Outcome.next (State.takeUnknown_held held code operands)
  case frameDiscard | resetAssert | resetRelease | firstIssueDelayExpiry | powerFailWarning | upstreamRequest | entryStart
      | downstreamIssue | downstreamResponse | responseTimeout | tick | ageExpiry | chooseNextWork | commitDrainComplete
      | walkStart | walkDrainComplete | formatAnchorWrites | recoveryEnd | settlingEnd | frameEnd =>
    exact absurd rfl carried
  all_goals exact congrArg Host.Outcome.next (State.takeCommand_held held _ _ _)

/-! ## Bits and bytes -/

theorem bitsByte_byteBits (b : Byte) : bitsByte (byteBits b) = b := by
  revert b
  decide

theorem length_byteBits (b : Byte) : (byteBits b).length = 8 := rfl

/-- A byte's first seven bits, and its last. -/
theorem byteBits_split (b : Byte) : ∃ bits last, bits.length = 7 ∧ byteBits b = bits ++ [last] :=
  ⟨(byteBits b).dropLast, (byteBits b).getLast (by simp [byteBits]), rfl, (List.dropLast_append_getLast _).symm⟩

/-! ## Clocking (R182, R183) -/

/-- A frame before its command is taken: the bytes and bits received, and the edges counted. -/
def Frame.awaiting (received : List Byte) (bits : List Bool) (edges : Nat) : Frame :=
  { received := received, bits := bits, edges := edges, answer := none }

/-- An edge while a frame is held acts in that frame. -/
theorem State.clockLink_held {s : State} {f : Frame} (running : s.inReset = false) (held : s.link.frame = some f) (b : Bool) :
    s.clockLink b = s.clockFrame f b := by
  unfold State.clockLink
  rw [running, held]

theorem State.clockBits_cons {s t : State} {b : Bool} (h : s.clockLink b = .next t) (rest : List Bool) :
    s.clockBits (b :: rest) = t.clockBits rest := by
  rw [State.clockBits, h]

theorem State.clockBits_singleton (s : State) (b : Bool) : s.clockBits [b] = s.clockLink b := by
  rw [State.clockBits]
  cases s.clockLink b <;> rfl

theorem State.clockBits_append {s t : State} {first : List Bool} (h : s.clockBits first = .next t) (rest : List Bool) :
    s.clockBits (first ++ rest) = t.clockBits rest := by
  induction first generalizing s with
  | nil => cases h; rfl
  | cons b first ih =>
    rw [List.cons_append]
    cases edge : s.clockLink b with
    | next u =>
      rw [State.clockBits_cons edge] at h ⊢
      exact ih h
    | fault r => rw [State.clockBits, edge] at h; cases h
    | refused r => rw [State.clockBits, edge] at h; cases h

/-- The state with a frame held, and the frame taken off the link again. -/
theorem State.dropFrame_holdFrame {s : State} (free : s.link.frame = none) (f : Frame) :
    { s.holdFrame f with link := { (s.holdFrame f).link with frame := none } } = s := by
  have same : ({ s.link with frame := none } : Link) = s.link := by rw [← free]
  show { s with link := { s.link with frame := none } } = s
  rw [same]

section
variable {s : State} (running : s.inReset = false) (received : List Byte) (bits : List Bool) (edges : Nat) (b : Bool)
include running

theorem State.clockLink_awaiting :
    (s.holdFrame (.awaiting received bits edges)).clockLink b =
      (s.holdFrame (.awaiting received bits edges)).clockFrame (.awaiting received bits edges) b :=
  State.clockLink_held (s := s.holdFrame _) running rfl b

/-- An edge that completes no byte keeps its bit. -/
theorem State.clockLink_within (short : (bits ++ [b]).length < 8) :
    (s.holdFrame (.awaiting received bits edges)).clockLink b =
      .next (s.holdFrame (.awaiting received (bits ++ [b]) (edges + 1))) := by
  rw [State.clockLink_awaiting running]
  exact if_pos short

/-- An edge that completes a byte, but no command, keeps the byte. -/
theorem State.clockLink_byte (eight : (bits ++ [b]).length = 8)
    (incomplete : decodeFrame (received ++ [bitsByte (bits ++ [b])]) = none) :
    (s.holdFrame (.awaiting received bits edges)).clockLink b =
      .next (s.holdFrame (.awaiting (received ++ [bitsByte (bits ++ [b])]) [] (edges + 1))) := by
  rw [State.clockLink_awaiting running]
  refine (if_neg (Nat.not_lt.mpr eight.ge)).trans ?_
  dsimp only [Frame.awaiting]
  rw [incomplete]
  rfl

/-- An edge that completes a command's last byte takes the command (R183). -/
theorem State.clockLink_takes {c : Instr} (free : s.link.frame = none) (eight : (bits ++ [b]).length = 8)
    (complete : decodeFrame (received ++ [bitsByte (bits ++ [b])]) = some c) :
    (s.holdFrame (.awaiting received bits edges)).clockLink b = exec c s := by
  rw [State.clockLink_awaiting running]
  refine (if_neg (Nat.not_lt.mpr eight.ge)).trans ?_
  dsimp only [Frame.awaiting]
  rw [complete]
  exact congrArg (exec c) (State.dropFrame_holdFrame free _)

end

section
variable {s : State} (running : s.inReset = false)
include running

/-- Bits that complete no byte are kept in the frame. -/
theorem State.clockBits_within (received : List Byte) (bits more : List Bool) (edges : Nat)
    (short : (bits ++ more).length < 8) :
    (s.holdFrame (.awaiting received bits edges)).clockBits more =
      .next (s.holdFrame (.awaiting received (bits ++ more) (edges + more.length))) := by
  induction more generalizing bits edges with
  | nil => rw [List.append_nil]; rfl
  | cons b more ih =>
    rw [List.append_cons] at short
    have first : (bits ++ [b]).length < 8 := by
      rw [List.length_append] at short
      omega
    rw [State.clockBits_cons (State.clockLink_within running received bits edges b first), ih _ _ short, ← List.append_cons,
      List.length_cons, Nat.add_assoc, Nat.add_comm 1]

section
variable (received : List Byte) (edges : Nat) (b : Byte)

/-- A byte's bits come down to its last edge, which finds the seven before it kept. -/
theorem State.clockBits_byteBits : ∃ bits last, (bits ++ [last]).length = 8 ∧ bitsByte (bits ++ [last]) = b ∧
    (s.holdFrame (.awaiting received [] edges)).clockBits (byteBits b) =
      (s.holdFrame (.awaiting received bits (edges + 7))).clockLink last := by
  obtain ⟨bits, last, seven, split⟩ := byteBits_split b
  have kept := State.clockBits_within running received [] bits edges (by rw [List.nil_append, seven]; decide)
  rw [List.nil_append, seven] at kept
  refine ⟨bits, last, split ▸ length_byteBits b, split ▸ bitsByte_byteBits b, ?_⟩
  rw [split, State.clockBits_append kept, State.clockBits_singleton]

/-- The bits of a byte that completes no command. -/
theorem State.clockBits_byte (incomplete : decodeFrame (received ++ [b]) = none) :
    (s.holdFrame (.awaiting received [] edges)).clockBits (byteBits b) =
      .next (s.holdFrame (.awaiting (received ++ [b]) [] (edges + 8))) := by
  obtain ⟨bits, last, eight, rfl, edge⟩ := State.clockBits_byteBits running received edges b
  rw [edge]
  exact State.clockLink_byte running received bits (edges + 7) last eight incomplete

/-- The bits of a command's last byte. -/
theorem State.clockBits_takes {c : Instr} (free : s.link.frame = none) (complete : decodeFrame (received ++ [b]) = some c) :
    (s.holdFrame (.awaiting received [] edges)).clockBits (byteBits b) = exec c s := by
  obtain ⟨bits, last, eight, rfl, edge⟩ := State.clockBits_byteBits running received edges b
  rw [edge]
  exact State.clockLink_takes running received bits (edges + 7) last free eight complete

end

/-- The bytes still missing of a command, clocked in: none of them but the last completes a command, since no command's bytes
begin with another's. -/
theorem State.clockBits_bytes {c : Instr} (free : s.link.frame = none) {bytes : List Byte} (missing : bytes ≠ [])
    {received : List Byte} (spells : decodeFrame (received ++ bytes) = some c) (edges : Nat) :
    (s.holdFrame (.awaiting received [] edges)).clockBits (bytes.flatMap byteBits) = exec c s := by
  induction bytes generalizing received edges with
  | nil => exact absurd rfl missing
  | cons b rest ih =>
    rw [List.flatMap_cons]
    by_cases last : rest = []
    · rw [last, List.flatMap_nil, List.append_nil]
      exact State.clockBits_takes running received edges b free (last ▸ spells)
    · rw [List.append_cons] at spells
      have incomplete : decodeFrame (received ++ [b]) = none :=
        Option.eq_none_iff_forall_ne_some.mpr fun _ part => last (eq_nil_of_decodeFrame_append spells part)
      rw [State.clockBits_append (State.clockBits_byte running received edges b incomplete)]
      exact ih last spells (edges + 8)

end

/-- The assertion of SCS_N on a free link begins a frame. -/
theorem State.selectLink_free {s : State} (h : LinkReady s) : s.selectLink = s.holdFrame (.awaiting [] [] 0) := by
  obtain ⟨running, heeded, free⟩ := h
  exact if_pos (by rw [State.linkFree, running, heeded, free]; rfl)

/-! ## What SDO shifts out (Table 11-1) -/

theorem State.sdo_held {s : State} {f : Frame} (running : s.inReset = false) (held : s.link.frame = some f) (p : Nat) :
    s.sdo p = some (f.sdo p) := by
  rw [State.sdo, held, running]
  rfl

theorem State.sdo_free {s : State} (free : s.link.frame = none) (p : Nat) : s.sdo p = none := by
  rw [State.sdo, free, Option.map_none, ite_self]

/-- Most significant bit first. -/
theorem State.sdoLevel_eq {s : State} {f : Frame} (held : s.link.frame = some f) :
    s.sdoLevel = (s.sdo (f.edges / 8)).map fun b => b.getLsbD (7 - f.edges % 8) := by
  have bit (b : Byte) : b.getMsbD (f.edges % 8) = b.getLsbD (7 - f.edges % 8) := by
    rw [BitVec.getMsbD, decide_eq_true (Nat.mod_lt _ (by decide)), Bool.true_and, Nat.sub_right_comm]
  rw [State.sdoLevel, State.sdo, held]
  split_ifs
  · rfl
  · exact congrArg some (bit _)

section
variable {f : Frame} {a : Answer} {p : Nat} (h : f.answer = some a)
include h

/-- SDO up to the turnaround byte, which follows the bytes received. -/
theorem Frame.sdo_turnaround (hp : p ≤ f.received.length) : f.sdo p = 0 := by
  unfold Frame.sdo
  rw [h]
  dsimp only
  rw [if_neg (by omega), if_pos (by omega)]

theorem Frame.sdo_result : f.sdo (f.received.length + 1) = a.result.code := by
  unfold Frame.sdo
  rw [h]
  exact if_pos rfl

theorem Frame.sdo_past_result (i : Nat) : f.sdo (f.received.length + 2 + i) = a.data.getD i 0 := by
  unfold Frame.sdo
  rw [h]
  dsimp only
  rw [if_neg (by omega), if_neg (by omega), Nat.add_sub_cancel_left]

theorem Frame.sdo_trailing (hp : f.received.length + 2 + a.data.length ≤ p) : f.sdo p = 0 := by
  obtain ⟨i, rfl⟩ := Nat.exists_eq_add_of_le hp
  rw [Nat.add_assoc _ a.data.length i, Frame.sdo_past_result h]
  exact List.getD_eq_default _ _ (Nat.le_add_right _ _)

theorem Frame.phase_turnaround (hp : f.edges / 8 ≤ f.received.length) : f.phase = .turnaround := by
  unfold Frame.phase
  rw [h]
  exact if_pos hp

theorem Frame.phase_result (hp : f.edges / 8 = f.received.length + 1) : f.phase = .result := by
  unfold Frame.phase
  rw [h]
  exact (if_neg (by omega)).trans (if_pos hp)

theorem Frame.phase_data (low : f.received.length + 2 ≤ f.edges / 8)
    (top : f.edges / 8 < f.received.length + 2 + a.data.length) : f.phase = .data := by
  unfold Frame.phase
  rw [h]
  exact (if_neg (by omega)).trans ((if_neg (by omega)).trans (if_pos top))

theorem Frame.phase_trailing (hp : f.received.length + 2 + a.data.length ≤ f.edges / 8) : f.phase = .trailing := by
  unfold Frame.phase
  rw [h]
  exact (if_neg (by omega)).trans ((if_neg (by omega)).trans (if_neg (by omega)))

end

theorem Frame.sdo_untaken {f : Frame} (h : f.answer = none) (p : Nat) : f.sdo p = 0 := by
  unfold Frame.sdo
  rw [h]

/-- Until its command is taken a frame is at its command byte or among its operand bytes. -/
theorem Frame.phase_untaken {f : Frame} (h : f.answer = none) :
    f.phase = if f.received = [] then .command else .operands := by
  unfold Frame.phase
  rw [h]
  simp only [List.isEmpty_iff]

/-- Once the command is taken an edge only counts (R183). -/
theorem State.clockFrame_taken (s : State) {f : Frame} {a : Answer} (h : f.answer = some a) (b : Bool) :
    s.clockFrame f b = .next (s.holdFrame { f with edges := f.edges + 1 }) := if_pos (by rw [h]; rfl)

/-- Settles O17: a command's frame from the assertion of SCS_N is `clockBits_bytes`, and the rest is the frame's phase and
byte at each position. -/
theorem frameCarriesOneCommandAndItsResult : Obligations.FrameCarriesOneCommandAndItsResult := by
  refine ⟨fun s running => ?_, fun bytes s incomplete running untaken => ?_, fun c s => exec_held, fun s _ => State.sdo_free,
    fun c s wellFormed carried ready => ?_, fun s f running held untaken => ?_, fun s f a running held taken => ?_⟩
  · exact congrArg Host.Outcome.next (State.endFrame_runs running)
  · rw [exec_frameDiscard incomplete untaken, State.endFrame_runs running]
  · rw [State.selectLink_free ready]
    obtain ⟨running, -, free⟩ := ready
    exact State.clockBits_bytes running free carried (linkFrameSpellsItsCommand c wellFormed carried) 0
  · exact ⟨fun p => by rw [State.sdo_held running held, Frame.sdo_untaken untaken], Frame.phase_untaken untaken⟩
  · refine ⟨fun b => ?_, fun p hp => ⟨?_, ?_⟩, ?_, Frame.phase_result taken, fun i inside => ⟨?_, ?_⟩,
      fun p hp => ⟨?_, ?_⟩, State.sdoLevel_eq held⟩
    · rw [State.clockLink_held running held, s.clockFrame_taken taken]
      rfl
    · rw [State.sdo_held running held, Frame.sdo_turnaround taken hp]
    · exact fun position => Frame.phase_turnaround taken (position ▸ hp)
    · rw [State.sdo_held running held, Frame.sdo_result taken]
    · rw [State.sdo_held running held, Frame.sdo_past_result taken, List.getD_eq_getElem _ _ inside]
    · exact fun position => Frame.phase_data taken (by omega) (by omega)
    · rw [State.sdo_held running held, Frame.sdo_trailing taken hp]
    · exact fun position => Frame.phase_trailing taken (position ▸ hp)

end Sys2Proof.Machine
end

section
/-! SUPPORT. The queue of commands (notes/assumptions/1.md): a step takes the command at its front, and the command's effect
leaves the rest. -/

namespace Sys2Proof.Machine

/-- Settles O1: the queue's front is what `step` matches. -/
theorem stepTakesTheFrontCommand : Obligations.StepTakesTheFrontCommand := fun _ _ _ => rfl

/-- Every row of the command table answers a next state: no arm of `exec` is refused. -/
theorem exec_answers (c : Instr) (s : State) : ∃ t, exec c s = .next t := by
  cases c <;> exact ⟨_, rfl⟩

/-- The queue of commands is in `t` as it is in `s`. -/
def QueueStands (s t : State) : Prop := t.pending = s.pending

theorem QueueStands.refl (s : State) : QueueStands s s := rfl

/-- What the operations below the level of a command do leaves the queue. -/
theorem QueueStands.kept {s t u : State} (h : QueueStands s t) (k : Kept t u) : QueueStands s u :=
  k.same.pending.trans h

/-! ## The commands that set a part of the state directly -/

theorem QueueStands.setParamReply (s : State) (code v : Nat) : QueueStands s (setParamReply code v s).state := by
  unfold Machine.setParamReply
  split <;> rfl

theorem QueueStands.setPriorityReply (s : State) (src p : Nat) : QueueStands s (setPriorityReply src p s).state := by
  unfold Machine.setPriorityReply
  split_ifs <;> rfl

theorem QueueStands.setThresholdReply (s : State) (v : Nat) : QueueStands s (setThresholdReply v s).state := by
  unfold Machine.setThresholdReply
  split_ifs <;> rfl

theorem QueueStands.popFaultReply (s : State) : QueueStands s (popFaultReply s).state := by
  unfold Machine.popFaultReply
  split <;> rfl

theorem QueueStands.claimReply (s : State) : QueueStands s (claimReply s).state := by
  unfold Machine.claimReply
  split <;> rfl

theorem QueueStands.endFrame (s : State) : QueueStands s s.endFrame := by
  unfold State.endFrame
  split_ifs <;> rfl

/-- Reset abandons the part's work, but the events still to come stay in the queue (R118). -/
theorem QueueStands.assertReset (s : State) : QueueStands s s.assertReset := by
  rw [State.assertReset_eq, State.abandonWork_eq]
  rfl

theorem QueueStands.issueNext (s : State) : QueueStands s s.issueNext :=
  State.issueNext_keeps (.refl s) fun _ _ _ _ _ _ _ => .refl s

theorem QueueStands.tick (s : State) : QueueStands s s.tick := by
  rw [s.tick_eq]
  rfl

theorem QueueStands.of_setsState {c : Instr} {s t : State} (hc : setsState c = true) (he : exec c s = .next t) :
    QueueStands s t := by
  have stands := QueueStands.refl s
  have hold (t : State) (f : Frame) (h : QueueStands s t) : QueueStands s (t.holdFrame f) := h
  cases c <;> cases hc
  case stage => exact execStage_keeps hold stands (fun _ _ _ _ => stands) he
  case format => exact execFormat_keeps hold stands (fun k h => h.kept k) (fun _ _ _ _ => stands) he
  case upstreamRequest => exact execUpstreamRequest_keeps stands (fun k h => h.kept k) stands (fun _ _ => stands) he
  all_goals cases he
  case setParam => exact State.takeCommand_keeps hold stands (gated_keeps stands fun _ => .setParamReply s _ _)
  case setPriority => exact State.takeCommand_keeps hold stands (gated_keeps stands fun _ => .setPriorityReply s _ _)
  case setThreshold => exact State.takeCommand_keeps hold stands (gated_keeps stands fun _ => .setThresholdReply s _)
  case popFault => exact State.takeCommand_keeps hold stands (gated_keeps stands fun _ => .popFaultReply s)
  case claim => exact State.takeCommand_keeps hold stands (.claimReply s)
  case frameDiscard =>
    split_ifs
    · exact .endFrame s
    · exact stands
  case frameEnd => exact .endFrame s
  case resetAssert => exact .assertReset s
  case resetRelease => exact stands
  case firstIssueDelayExpiry => exact State.unlessReset_keeps stands fun _ => stands
  case downstreamIssue => exact State.unlessReset_keeps stands fun _ => .issueNext s
  case tick =>
    exact State.unlessReset_keeps stands fun _ => (QueueStands.tick s).kept ((Kept.takeExpiries _).trans (.followOn _))

/-! ## All commands -/

/-- No command touches the queue. -/
theorem QueueStands.exec {c : Instr} {s t : State} (he : exec c s = .next t) : QueueStands s t := by
  cases hc : setsState c with
  | false =>
    obtain ⟨u, hu, k⟩ := exec_kept hc s
    obtain rfl : u = t := Host.Outcome.next.inj (hu.symm.trans he)
    obtain k | ⟨v, f, k, rfl⟩ := k
    · exact k.same.pending
    · exact k.same.pending
  | true => exact .of_setsState hc he

/-- Settles O2: every command answers by `exec_answers`, and the queue stands by `QueueStands.exec`. -/
theorem everyCommandIsAnsweredAndTheQueueStands : Obligations.EveryCommandIsAnsweredAndTheQueueStands := by
  intro c s
  obtain ⟨t, answered⟩ := exec_answers c s
  exact ⟨t, answered, QueueStands.exec answered⟩

end Sys2Proof.Machine
end
